-- ==== Sys2Proof/Word.lean ====
section
/-! DEFINITION. The value types of the block: every multi-bit value is an unsigned integer, bit 0 the least
significant (00_scope.md R6); a line level is one bit. -/

namespace Sys2Proof

/-- A line level, or any one-bit register of the block (00_scope.md R6). `true` is 1. -/
abbrev Level := Bool

/-- A Register Value: "a 16-bit unsigned quantity" (00_scope.md R6, R9). -/
abbrev Word16 := BitVec 16

/-- A Device Address or a Register Address: a "5-bit identifier (0–31)" (00_scope.md R6, 30_encoding.md R68). -/
abbrev Addr5 := BitVec 5

end Sys2Proof
end

