-- ==== Sys2Proof/Config.lean ====
section
/-! DEFINITION. The configuration record of 00_scope.md R5, its well-formedness, and the model's free values. -/

namespace Sys2Proof

/-- The configuration record of 00_scope.md R5, field for field. `LINE_DATA` and `LINE_CLK`, "two distinct opaque
identifiers", are the two constructors of `Machine.Line`. -/
structure ConfigRecord where
  /-- `PREAMBLE_LEN`: number of 1 bits sent before the start field. -/
  preambleLen : Nat
  /-- `TA_WR`: the turnaround pattern of a write frame. -/
  taWr : BitVec 2
  /-- `TA_RD_CLOCKS`: raw clock periods in the turnaround window of a read frame. -/
  taRdClocks : Nat
  /-- `ARGW`: width of each host operand port. -/
  argw : Nat
  /-- `SEL_REG` -/
  selReg : Nat
  /-- `DATA_REG` -/
  dataReg : Nat
  /-- `PAGE_SEL_BITS` -/
  pageSelBits : Nat
  /-- `CTRL_REG` -/
  ctrlReg : Nat
  /-- `RESET_MASK` -/
  resetMask : Nat
  /-- `STATUS_REG` -/
  statusReg : Nat
  /-- `LINK_MASK` -/
  linkMask : Nat
  /-- `ID_HI_REG` -/
  idHiReg : Nat
  /-- `ID_LO_REG` -/
  idLoReg : Nat
  /-- `ID_SHORT_CIRCUIT` -/
  idShortCircuit : Bool
  /-- `RESET_POLL_LIMIT`: `none` is `INF`. -/
  resetPollLimit : Option Nat
deriving DecidableEq, Repr

/-- The limit is `INF` or an integer of at least 1 (00_scope.md R5). -/
def ConfigRecord.limitWellFormed : Option Nat → Bool
  | none => true
  | some k => decide (1 ≤ k)

/-- "A configuration is well formed iff …" (00_scope.md R5), condition by condition. -/
def ConfigRecord.wellFormed (r : ConfigRecord) : Bool :=
  decide (32 ≤ r.preambleLen) && decide (1 ≤ r.taRdClocks) && decide (17 ≤ r.argw)
    && decide (r.selReg ≤ 31) && decide (r.dataReg ≤ 31) && decide (r.ctrlReg ≤ 31)
    && decide (r.statusReg ≤ 31) && decide (r.idHiReg ≤ 31) && decide (r.idLoReg ≤ 31)
    && decide (r.selReg ≠ r.dataReg)
    && decide (r.pageSelBits ≤ 0xFFFF) && decide (r.resetMask ≤ 0xFFFF) && decide (r.linkMask ≤ 0xFFFF)
    && decide (r.resetMask ≠ 0) && decide (r.linkMask ≠ 0)
    && ConfigRecord.limitWellFormed r.resetPollLimit

/-- A well-formed configuration. "The model refuses an ill-formed configuration" (00_scope.md R5): there is no value
of this type for one. DESIGN CHOICE (log 1). Safe. -/
structure Config where
  record : ConfigRecord
  wf : record.wellFormed = true
deriving DecidableEq, Repr

/-- The configuration of a record, refused (`none`) where the record is ill formed (93_implementation_defined.md U15). -/
def Config.ofRecord? (r : ConfigRecord) : Option Config :=
  if h : r.wellFormed = true then some ⟨r, h⟩ else none

namespace Config

abbrev preambleLen (c : Config) : Nat := c.record.preambleLen
abbrev taWr (c : Config) : BitVec 2 := c.record.taWr
abbrev taRdClocks (c : Config) : Nat := c.record.taRdClocks
abbrev argw (c : Config) : Nat := c.record.argw
abbrev idShortCircuit (c : Config) : Bool := c.record.idShortCircuit
abbrev resetPollLimit (c : Config) : Option Nat := c.record.resetPollLimit
def selReg (c : Config) : Addr5 := BitVec.ofNat 5 c.record.selReg
def dataReg (c : Config) : Addr5 := BitVec.ofNat 5 c.record.dataReg
def ctrlReg (c : Config) : Addr5 := BitVec.ofNat 5 c.record.ctrlReg
def statusReg (c : Config) : Addr5 := BitVec.ofNat 5 c.record.statusReg
def idHiReg (c : Config) : Addr5 := BitVec.ofNat 5 c.record.idHiReg
def idLoReg (c : Config) : Addr5 := BitVec.ofNat 5 c.record.idLoReg
def pageSelBits (c : Config) : Word16 := BitVec.ofNat 16 c.record.pageSelBits
def resetMask (c : Config) : Word16 := BitVec.ofNat 16 c.record.resetMask
def linkMask (c : Config) : Word16 := BitVec.ofNat 16 c.record.linkMask

/-- `SEL_REG` of the built block: OPEN (92_eei_decisions.md D11), so a free value. Log 2. Safe. -/
opaque openSelReg : Addr5

/-- The raw free value `DATA_REG` of the built block is made of (92_eei_decisions.md D11). Log 2. Safe. -/
opaque openDataReg : Addr5

/-- `PAGE_SEL_BITS` of the built block: OPEN (92_eei_decisions.md D11), so a free value. Log 2. Safe. -/
opaque openPageSelBits : Word16

/-- The level the environment answers the `n`-th free draw of a data-line sample with (20_memory.md R46: "under no
law from this spec"). A free value: no body. Log 4. Safe. -/
opaque freeLevel : Nat → Level

/-- `DATA_REG` of the built block: the raw free value, moved off `SEL_REG` where the two coincide, since
`SEL_REG != DATA_REG` (00_scope.md R5). Every pair of distinct addresses is still possible. Log 2. Safe. -/
def blockDataReg : Addr5 := if openDataReg = openSelReg then openSelReg + 1 else openDataReg

/-- The values 00_scope.md R5 decides for this hardware; the three OPEN ones free. Log 3. -/
def blockRecord : ConfigRecord where
  preambleLen := 32
  taWr := 0b10
  taRdClocks := 2
  argw := 32
  selReg := openSelReg.toNat
  dataReg := blockDataReg.toNat
  pageSelBits := openPageSelBits.toNat
  ctrlReg := 0
  resetMask := 0x8000
  statusReg := 1
  linkMask := 0x0004
  idHiReg := 2
  idLoReg := 3
  idShortCircuit := true
  resetPollLimit := none

theorem blockDataReg_ne_sel : openSelReg.toNat ≠ blockDataReg.toNat := by
  unfold blockDataReg
  split
  · bv_omega
  · rename_i h
    intro e
    exact h (BitVec.eq_of_toNat_eq e.symm)

theorem blockRecord_wellFormed : blockRecord.wellFormed = true := by
  have h1 := openSelReg.isLt
  have h2 := blockDataReg.isLt
  have h3 := openPageSelBits.isLt
  have h4 := blockDataReg_ne_sel
  simp only [ConfigRecord.wellFormed, Bool.and_eq_true, decide_eq_true_eq]
  simp only [blockRecord, ConfigRecord.limitWellFormed, and_true]
  omega

/-- The configuration of the block after reset (00_scope.md R5, column "value"). Log 3. -/
def block : Config := ⟨blockRecord, blockRecord_wellFormed⟩

end Config

end Sys2Proof
end

