-- ==== Sys2Proof/Syntax.lean ====
section
/-! DEFINITION. The instructions: one constructor per row of spec/opcode_table.json. -/

namespace Sys2Proof

/-- The four operand ports of the one command format `CMD` (30_encoding.md R65), as the unsigned integers presented on
them. Every command carries all four: a port the command does not use is ignored (R66) but its low bits are still
latched (10_state.md R11). -/
structure CmdOperands where
  /-- `cmd_dev` -/
  dev : Nat
  /-- `cmd_reg` -/
  reg : Nat
  /-- `cmd_val` -/
  val : Nat
  /-- `cmd_val2` -/
  val2 : Nat
deriving DecidableEq, Repr

/-- The rows of spec/opcode_table.json: seven commands and the reserved code of the host port (30_encoding.md R66,
R69), and the two wire frames (R60), which are the micro-operations the engine runs (40_codec.md). -/
inductive Instr where
  /-- `RDREG d, r` (41_direct_access.md R100) -/
  | rdreg (a : CmdOperands)
  /-- `WRREG d, r, v` (41_direct_access.md R101) -/
  | wrreg (a : CmdOperands)
  /-- `RDEXP d, x` (42_expansion_access.md R111) -/
  | rdexp (a : CmdOperands)
  /-- `WREXP d, x, v` (42_expansion_access.md R110) -/
  | wrexp (a : CmdOperands)
  /-- `CHKDEV d, hi, lo` (43_device_ops.md R120) -/
  | chkdev (a : CmdOperands)
  /-- `RSTDEV d` (43_device_ops.md R121) -/
  | rstdev (a : CmdOperands)
  /-- `LINK d` (43_device_ops.md R122) -/
  | link (a : CmdOperands)
  /-- the reserved command code 7 (30_encoding.md R69) -/
  | reserved (a : CmdOperands)
  /-- `WriteFrame(d5, r5, v16)` (40_codec.md R85) -/
  | frameWrite (d r : Addr5) (v : Word16)
  /-- `ReadFrame(d5, r5)` (40_codec.md R86); its data bits are sampled, so they are no operand -/
  | frameRead (d r : Addr5)
deriving DecidableEq, Repr

end Sys2Proof
end

