-- ==== Sys2Proof/WellFormed.lean ====
section
/-! DEFINITION. Well-formed instructions: an operand fits the `ARGW`-bit port it is presented on (10_state.md R24). -/

namespace Sys2Proof

/-- Each operand port is `argw` bits wide (10_state.md R24, 30_encoding.md R65). An operand out of the range its
command admits is well formed: it is presentable, and the command is then rejected (60_exceptions.md R140). -/
def CmdOperands.fits (argw : Nat) (a : CmdOperands) : Bool :=
  decide (a.dev < 2 ^ argw) && decide (a.reg < 2 ^ argw) && decide (a.val < 2 ^ argw) && decide (a.val2 < 2 ^ argw)

/-- A command's operands fit their ports; the fields of a frame are 5, 5 and 16 bits by their types
(30_encoding.md R68). -/
def Instr.wellFormed (argw : Nat) : Instr → Bool
  | .rdreg a => a.fits argw
  | .wrreg a => a.fits argw
  | .rdexp a => a.fits argw
  | .wrexp a => a.fits argw
  | .chkdev a => a.fits argw
  | .rstdev a => a.fits argw
  | .link a => a.fits argw
  | .reserved a => a.fits argw
  | .frameWrite _ _ _ => true
  | .frameRead _ _ => true

end Sys2Proof
end

