-- ==== Sys2Proof/Decode.lean ====
section
/-! DEFINITION. The two encodings of 30_encoding.md: the host command and the wire frame; a decoder total on both, which
rejects by name, and after it the encoder. -/

namespace Sys2Proof

/-- A command as presented on the host port in one step: `cmd_op[2:0]` and the four operand ports (30_encoding.md R65). -/
structure CmdPorts where
  op : BitVec 3
  args : CmdOperands
deriving DecidableEq, Repr

/-- What the decoder reads: a command on the host port, or the 32 bits of a frame after its preamble, first bit on the
wire as bit 31 (30_encoding.md R60). -/
inductive CodeWord where
  | cmd (p : CmdPorts)
  | frame (fw : BitVec 32)
deriving DecidableEq, Repr

/-- Why a code word is rejected. -/
inductive DecodeError where
  /-- an operand that the `ARGW`-bit port cannot carry (10_state.md R24) -/
  | operandWiderThanPort
  /-- a start field other than `01` (30_encoding.md R69, 93_implementation_defined.md U14) -/
  | badStart
  /-- an opcode field `00` or `11` (30_encoding.md R69, 93_implementation_defined.md U14) -/
  | badOpcode
  /-- a write frame whose turnaround field is not `TA_WR` (30_encoding.md R62) -/
  | badTurnaround
deriving DecidableEq, Repr

/-- The start field, `0b01` (30_encoding.md R60). -/
def startField : BitVec 2 := 0b01

/-- The opcode field of a read frame, `0b10` (30_encoding.md R60). -/
def opRead : BitVec 2 := 0b10

/-- The opcode field of a write frame, `0b01` (30_encoding.md R60). -/
def opWrite : BitVec 2 := 0b01

/-- `FW_write(d, r, v)` (30_encoding.md R62). -/
def fwWrite (taWr : BitVec 2) (d r : Addr5) (v : Word16) : BitVec 32 :=
  startField ++ opWrite ++ d ++ r ++ taWr ++ v

/-- `H_read(d, r)`, the 14 bits of a read frame that the master drives (30_encoding.md R63). -/
def hRead (d r : Addr5) : BitVec 14 :=
  startField ++ opRead ++ d ++ r

/-- The command map (30_encoding.md R66, R69). -/
def commandOf (op : BitVec 3) (a : CmdOperands) : Instr :=
  match op.toNat with
  | 0 => .rdreg a
  | 1 => .wrreg a
  | 2 => .rdexp a
  | 3 => .wrexp a
  | 4 => .chkdev a
  | 5 => .rstdev a
  | 6 => .link a
  | _ => .reserved a

/-- The command on the host port. -/
def decodeCommand (argw : Nat) (p : CmdPorts) : Except DecodeError Instr :=
  if p.args.fits argw then .ok (commandOf p.op p.args) else .error .operandWiderThanPort

/-- The frame of a frame word, field by field (30_encoding.md R60). The turnaround and data bits of a read frame are
"not driven by the master" (R63): the decoder does not look at them. -/
def decodeFrame (taWr : BitVec 2) (fw : BitVec 32) : Except DecodeError Instr :=
  if fw.extractLsb' 30 2 ≠ startField then .error .badStart
  else if fw.extractLsb' 28 2 = opRead then .ok (.frameRead (fw.extractLsb' 23 5) (fw.extractLsb' 18 5))
  else if fw.extractLsb' 28 2 = opWrite then
    if fw.extractLsb' 16 2 = taWr then
      .ok (.frameWrite (fw.extractLsb' 23 5) (fw.extractLsb' 18 5) (fw.extractLsb' 0 16))
    else .error .badTurnaround
  else .error .badOpcode

/-- The decoder, total on code words. -/
def decode (c : Config) : CodeWord → Except DecodeError Instr
  | .cmd p => decodeCommand c.argw p
  | .frame fw => decodeFrame c.taWr fw

/-- The encoder, from the same tables (30_encoding.md R62, R63, R66). The 18 bits of a read frame that no master drives
are written 0. -/
def encode (c : Config) : Instr → CodeWord
  | .rdreg a => .cmd ⟨0, a⟩
  | .wrreg a => .cmd ⟨1, a⟩
  | .rdexp a => .cmd ⟨2, a⟩
  | .wrexp a => .cmd ⟨3, a⟩
  | .chkdev a => .cmd ⟨4, a⟩
  | .rstdev a => .cmd ⟨5, a⟩
  | .link a => .cmd ⟨6, a⟩
  | .reserved a => .cmd ⟨7, a⟩
  | .frameWrite d r v => .frame (fwWrite c.taWr d r v)
  | .frameRead d r => .frame (hRead d r ++ 0#18)

/-- The code word of an opcode-table word of `nbits` bits: a command row gives the 3 bits of `cmd_op` (in one byte) and
operand ports of zeros; a frame row gives the 32-bit frame word. -/
def codeWordOfTable (nbits w : Nat) : Option CodeWord :=
  if nbits ≤ 8 then some (.cmd ⟨BitVec.ofNat 3 w, ⟨0, 0, 0, 0⟩⟩)
  else if nbits = 32 then some (.frame (BitVec.ofNat 32 w))
  else none

/-- The instruction the decoder reads from an opcode-table word, under the block's own configuration. -/
def decodeTableWord (nbits w : Nat) : Option Instr :=
  match codeWordOfTable nbits w with
  | none => none
  | some cw =>
    match decode Config.block cw with
    | .ok i => some i
    | .error _ => none

end Sys2Proof
end

