-- ==== Sys2Proof/Machine/State.lean ====
section
/-! DEFINITION. The state of the block (10_state.md R10), the inputs held as plain data beside it, the reasons a step
can stop, and the state after reset (70_reset_and_hazards.md R161). -/

namespace Sys2Proof.Machine

/-- The two lines the block owns: `LINE_DATA` (`MDIO`) and `LINE_CLK` (`MDC`), distinct (00_scope.md R5). -/
inductive Line where
  | mdio
  | mdc
deriving DecidableEq, Repr

/-- The mode of a line (00_scope.md R6). -/
inductive Direction where
  | output
  | input
deriving DecidableEq, Repr

/-- A line event (00_scope.md R7, R9). A read event carries the level that was answered. -/
inductive LineEvent where
  /-- `DIR(line, mode)` -/
  | dir (line : Line) (mode : Direction)
  /-- `WR(line, b)` -/
  | wr (line : Line) (b : Level)
  /-- `b <- RD(line)` -/
  | rd (line : Line) (b : Level)
deriving DecidableEq, Repr

/-- `PH`, the phase of the current frame (10_state.md R14). -/
inductive Phase where
  | idle
  | start
  | pre
  | st
  | op
  | phyad
  | regad
  | ta
  | data
  | rel
deriving DecidableEq, Repr

/-- `SUB`, the line event inside a bit slot (10_state.md R14): 0 the data-line event, 1 `WR(MDC,1)`, 2 `WR(MDC,0)`. -/
inductive Sub where
  | data
  | rise
  | fall
deriving DecidableEq, Repr

/-- `SEQ`, the sequencer position (10_state.md R14). -/
structure Seq where
  /-- `XACT`: index of the current transaction inside the command -/
  xact : Fin 3
  /-- `PH` -/
  ph : Phase
  /-- `CNT`: bit slots still to do in the phase, counting the one in progress -/
  cnt : Nat
  /-- `SUB` -/
  sub : Sub
deriving DecidableEq, Repr

/-- `SEQ = (0, P_IDLE, 0, 0)` (10_state.md R14). -/
def Seq.idle : Seq := ⟨0, .idle, 0, .data⟩

/-- `SEQ = (k, P_START, 0, 0)` (10_state.md R24, 40_codec.md R88). -/
def Seq.startOf (k : Fin 3) : Seq := ⟨k, .start, 0, .data⟩

/-- `STATUS` (10_state.md R16): code 3 is "never written", so the type has no value for it
(93_implementation_defined.md U13). -/
inductive Status where
  | ok
  | invalidArgument
  | timeout
deriving DecidableEq, Repr

/-- What the environment answers `RD(MDIO)` with: a free input (20_memory.md R46). The answers in the list come first;
after them the level `held`, where there is one; else a fresh free value for each sample, `Config.freeLevel draws`.
The model's own data, no state of the block (log 4). -/
structure Env where
  answers : List Level
  held : Option Level
  draws : Nat
deriving DecidableEq, Repr

/-- What the host drives on the input pins during one step (10_state.md R24). -/
structure HostPins where
  /-- `rst` -/
  rst : Bool
  /-- `cmd_valid` -/
  cmdValid : Bool
  /-- `cmd_op`, `cmd_dev`, `cmd_reg`, `cmd_val`, `cmd_val2` -/
  cmd : CmdPorts
deriving DecidableEq, Repr

/-- Every input pin 0. -/
def HostPins.quiet : HostPins := ⟨false, false, ⟨0, ⟨0, 0, 0, 0⟩⟩⟩

/-- The reasons the model stops. The spec names no behaviour that stops the block: each of these is raised only in
states the spec calls unreachable (40_codec.md R88), and by no state that keeps the invariant of Safety.lean (log 9). -/
inductive Fault where
  /-- raised by the engine at a (`PH`, `SUB`) that is not in the table of 40_codec.md R88. Safe: the spec gives no
  step there. -/
  | seqNotInTable
  /-- raised by the engine where (`A_OP`, `XACT`) names no transaction of any command. Safe: the spec gives no
  step there. -/
  | noTransaction
  /-- raised by the engine in the data-line event of a driven slot with `CNT = 0`, which would send `f[-1]`. Safe: the
  spec gives no step there. -/
  | noFieldBit
deriving DecidableEq, Repr

/-- The reasons the model refuses. -/
inductive Refusal where
  /-- raised by `exec` for an instruction without a meaning. Safe. No arm of this model raises it. -/
  | notModelled (mnemonic : String)
  /-- raised by `step` where the host's pins are said to carry a value wider than the `ARGW`-bit port (10_state.md R24),
  which no host can present. Safe (log 10). -/
  | operandWiderThanPort
deriving DecidableEq, Repr

/-- The state of the block, register by register (10_state.md R10), its configuration, and its inputs as plain data. -/
structure State where
  /-- the configuration record (00_scope.md R5): no step changes it (log 1) -/
  cfg : Config
  /-- `A_OP` -/
  aOp : BitVec 3
  /-- `A_DEV` -/
  aDev : Addr5
  /-- `A_REG` -/
  aReg : Word16
  /-- `A_VAL` -/
  aVal : Word16
  /-- `A_VAL2` -/
  aVal2 : Word16
  /-- `SHR`, the read accumulator (10_state.md R12) -/
  shr : Word16
  /-- `RESULT` (10_state.md R13) -/
  result : Word16
  /-- `STATUS` (10_state.md R16) -/
  status : Status
  /-- `DONE` (10_state.md R16) -/
  done : Bool
  /-- `BUSY` (10_state.md R16) -/
  busy : Bool
  /-- `M1` (10_state.md R18) -/
  m1 : Bool
  /-- `POLLS` (10_state.md R17) -/
  polls : Nat
  /-- `SEQ` (10_state.md R14) -/
  seq : Seq
  /-- `MDC_OE`: 1 is Output (10_state.md R20) -/
  mdcOe : Bool
  /-- `MDC_O` -/
  mdcO : Level
  /-- `MDIO_OE`: 1 is Output -/
  mdioOe : Bool
  /-- `MDIO_O` -/
  mdioO : Level
  /-- the line trace: "the ordered list of all line events since reset" (00_scope.md R7), oldest first -/
  trace : List LineEvent
  /-- the host's input pins in this step and the coming ones, all 0 after the last record (log 5) -/
  hostIn : List HostPins
  /-- the environment's answers to the coming samples (log 4) -/
  env : Env
deriving DecidableEq, Repr

/-- The environment the model starts from: nothing is known of any answer (log 4). -/
def Env.unknown : Env := ⟨[], none, 0⟩

/-- The machine right after reset: every register at the value 70_reset_and_hazards.md R161 gives it. -/
def State.reset : State where
  cfg := Config.block
  aOp := 0
  aDev := 0
  aReg := 0
  aVal := 0
  aVal2 := 0
  shr := 0
  result := 0
  status := .ok
  done := false
  busy := false
  m1 := false
  polls := 0
  seq := Seq.idle
  mdcOe := true
  mdcO := false
  mdioOe := false
  mdioO := true
  trace := []
  hostIn := []
  env := Env.unknown

end Sys2Proof.Machine
end

