-- ==== Sys2Proof/Machine/Flags.lean ====
section
/-! DEFINITION. Flag and bit-test computations (30_encoding.md R72, 43_device_ops.md R123) and the codes of `STATUS`. -/

namespace Sys2Proof.Machine

/-- The code of `STATUS` on `rsp_status[1:0]` (10_state.md R16). -/
def Status.code : Status → BitVec 2
  | .ok => 0
  | .invalidArgument => 1
  | .timeout => 2

/-- The number of a `SUB` value (10_state.md R14). -/
def Sub.code : Sub → Nat
  | .data => 0
  | .rise => 1
  | .fall => 2

/-- `(v & MASK) != 0` (30_encoding.md R72). -/
def maskTest (v mask : Word16) : Bool := decide (v &&& mask ≠ 0)

/-- "a boolean result is delivered as `RESULT = 0x0001` (true) or `0x0000` (false)" (43_device_ops.md R123). -/
def boolResult (b : Bool) : Word16 := if b then 0x0001 else 0x0000

/-- `((SHR << 1) | b)[15:0]` (10_state.md R12, 30_encoding.md R72). -/
def shiftIn (w : Word16) (b : Level) : Word16 := (w <<< 1) ||| (if b then 1 else 0)

/-- The link bit of the value read last (43_device_ops.md R122). -/
def linkBit (s : State) : Bool := maskTest s.shr s.cfg.linkMask

/-- The reset bit of the value read last (43_device_ops.md R121). -/
def resetBit (s : State) : Bool := maskTest s.shr s.cfg.resetMask

/-- `SHR == A_VAL`: the first identity register matches (43_device_ops.md R120). -/
def idHighMatches (s : State) : Bool := decide (s.shr = s.aVal)

/-- `SHR == A_VAL2`: the second identity register matches (43_device_ops.md R120). -/
def idLowMatches (s : State) : Bool := decide (s.shr = s.aVal2)

/-- `RESET_POLL_LIMIT != INF and POLLS == RESET_POLL_LIMIT` (43_device_ops.md R121). -/
def pollLimitReached (s : State) : Bool := decide (s.cfg.resetPollLimit = some s.polls)

end Sys2Proof.Machine
end

