-- ==== Sys2Proof/Machine/Operands.lean ====
section
/-! DEFINITION. Operands: the validity predicates of the accept step (60_exceptions.md R140), latching (10_state.md R11,
R24), and the operand transformations of 30_encoding.md R67. -/

namespace Sys2Proof.Machine

/-- `cmd_dev > 31` (60_exceptions.md R140). -/
def badDev (a : CmdOperands) : Bool := decide (31 < a.dev)

/-- `cmd_reg > 31` (60_exceptions.md R140). -/
def badReg5 (a : CmdOperands) : Bool := decide (31 < a.reg)

/-- `cmd_reg > 0xFFFF` (60_exceptions.md R140). -/
def badReg16 (a : CmdOperands) : Bool := decide (0xFFFF < a.reg)

/-- `cmd_val > 0xFFFF` (60_exceptions.md R140). -/
def badVal (a : CmdOperands) : Bool := decide (0xFFFF < a.val)

/-- `cmd_val2 > 0xFFFF` (60_exceptions.md R140). -/
def badVal2 (a : CmdOperands) : Bool := decide (0xFFFF < a.val2)

/-- When `RDREG` is invalid (60_exceptions.md R140). -/
def invalidRdreg (a : CmdOperands) : Bool := badDev a || badReg5 a

/-- When `WRREG` is invalid (60_exceptions.md R140). -/
def invalidWrreg (a : CmdOperands) : Bool := badDev a || badReg5 a || badVal a

/-- When `RDEXP` is invalid (60_exceptions.md R140). -/
def invalidRdexp (a : CmdOperands) : Bool := badDev a || badReg16 a

/-- When `WREXP` is invalid (60_exceptions.md R140). -/
def invalidWrexp (a : CmdOperands) : Bool := badDev a || badReg16 a || badVal a

/-- When `CHKDEV` is invalid (60_exceptions.md R140). -/
def invalidChkdev (a : CmdOperands) : Bool := badDev a || badVal a || badVal2 a

/-- When `RSTDEV` is invalid (60_exceptions.md R140). -/
def invalidRstdev (a : CmdOperands) : Bool := badDev a

/-- When `LINK` is invalid (60_exceptions.md R140). -/
def invalidLink (a : CmdOperands) : Bool := badDev a

/-- The operand latches, all five in one step, each the low bits of its port (10_state.md R11, R24). -/
def latch (op : BitVec 3) (a : CmdOperands) (s : State) : State :=
  { s with
    aOp := op
    aDev := BitVec.ofNat 5 a.dev
    aReg := BitVec.ofNat 16 a.reg
    aVal := BitVec.ofNat 16 a.val
    aVal2 := BitVec.ofNat 16 a.val2 }

/-- REGAD of `RDREG` and `WRREG`: `A_REG[4:0]` (30_encoding.md R67, 41_direct_access.md R100). -/
def regadOf (s : State) : Addr5 := s.aReg.setWidth 5

/-- The select value `extRegAddr | PAGE_SEL_BITS`: "a bitwise OR of two 16-bit values, nothing more"
(42_expansion_access.md R113). -/
def selectValue (s : State) : Word16 := s.aReg ||| s.cfg.pageSelBits

end Sys2Proof.Machine
end

