-- ==== Sys2Proof/Machine/Ops.lean ====
section
/-! DEFINITION. The shared operations: line events, the read oracle, the two error outcomes and completion, the accept
step, hardware reset, the input pins, and the output ports. -/

namespace Sys2Proof.Machine

/-- What a meaning answers. -/
abbrev Result := Host.Outcome State Fault Refusal

/-! ### Line events (00_scope.md R7, 10_state.md R21) -/

/-- `emit e`: append to the line trace (00_scope.md R7). -/
def emit (e : LineEvent) (s : State) : State := { s with trace := s.trace ++ [e] }

/-- `DIR(MDIO, Output)`: `MDIO_OE <- 1` (10_state.md R21). -/
def dirOutput (s : State) : State := emit (.dir .mdio .output) { s with mdioOe := true }

/-- `DIR(MDIO, Input)`: `MDIO_OE <- 0` (10_state.md R21). -/
def dirInput (s : State) : State := emit (.dir .mdio .input) { s with mdioOe := false }

/-- `WR(MDIO, b)`: `MDIO_O <- b` (10_state.md R21). -/
def wrMdio (b : Level) (s : State) : State := emit (.wr .mdio b) { s with mdioO := b }

/-- `WR(MDC, b)`: `MDC_O <- b` (10_state.md R21). -/
def wrMdc (b : Level) (s : State) : State := emit (.wr .mdc b) { s with mdcO := b }

/-- The environment's next answer, and the environment after it (20_memory.md R46, log 4). -/
def Env.next (e : Env) : Level × Env :=
  match e.answers with
  | b :: rest => (b, { e with answers := rest })
  | [] =>
    match e.held with
    | some b => (b, e)
    | none => (Config.freeLevel e.draws, { e with draws := e.draws + 1 })

/-- `b <- RD(MDIO)`: the level the environment presents; no register of the block changes (10_state.md R22). -/
def rdMdio (s : State) : Level × State :=
  (s.env.next.1, emit (.rd .mdio s.env.next.1) { s with env := s.env.next.2 })

/-! ### Errors and completion (60_exceptions.md R148, 10_state.md R15, R16) -/

/-- An error outcome: "It writes `STATUS` with the code, `RESULT <- 0`, `DONE <- 1`"; it "saves nothing and transfers
control nowhere" (60_exceptions.md R148). The one operation both errors go through. -/
def raise (code : Status) (s : State) : State := { s with status := code, result := 0, done := true }

/-- The engine goes idle: `SEQ <- (0, P_IDLE, 0, 0)`, `BUSY <- 0` (10_state.md R15). There is no return instruction
(60_exceptions.md R149): this is how the block becomes ready again. -/
def finish (s : State) : State := { s with busy := false, seq := Seq.idle }

/-- `RESULT <- v; STATUS <- OK; DONE <- 1; BUSY <- 0` (10_state.md R13, R15, R16). -/
def complete (v : Word16) (s : State) : State := finish { s with status := .ok, result := v, done := true }

/-- `SEQ <- (k, P_START, 0, 0)`: the next frame of the command (10_state.md R15, 40_codec.md R88). -/
def startFrame (k : Fin 3) (s : State) : State := { s with seq := Seq.startOf k }

/-! ### The accept step (10_state.md R24) -/

/-- `DONE <- 0`, before the validity check (10_state.md R16, R24). -/
def clearDone (s : State) : State := { s with done := false }

/-- What a valid command's accept writes after the latches: `M1 <- 0`, `POLLS <- 0`, `BUSY <- 1`,
`SEQ <- (0, P_START, 0, 0)` (10_state.md R24). -/
def beginCommand (s : State) : State :=
  startFrame 0 { s with m1 := false, polls := 0, busy := true }

/-- The accept step, in the order 10_state.md R24 gives. "While `BUSY = 1` `cmd_valid` is ignored": a command then
changes nothing (R24, 70_reset_and_hazards.md R170). -/
def accept (op : BitVec 3) (invalid : Bool) (a : CmdOperands) (s : State) : State :=
  if s.busy then s
  else if invalid then raise .invalidArgument (clearDone s)
  else beginCommand (latch op a (clearDone s))

/-! ### Hardware reset (70_reset_and_hazards.md R160, R161, R162) -/

/-- `rst = 1`: "every register … holds its reset value, no line event is emitted" (70_reset_and_hazards.md R160), and
the line trace is empty again (R161). What is no state of the block stays: the configuration, the host's pins and the
environment. -/
def hardwareReset (s : State) : State :=
  { State.reset with cfg := s.cfg, hostIn := s.hostIn, env := s.env }

/-! ### The input pins (10_state.md R24) -/

/-- The host's pins in this step: all 0 once nothing is listed (log 5). -/
def hostPins (s : State) : HostPins := s.hostIn.headD HostPins.quiet

/-- The state with this step's pins used up. -/
def nextInput (s : State) : State := { s with hostIn := s.hostIn.tail }

/-! ### The output ports (10_state.md R20, R25) -/

/-- The line port (10_state.md R20). -/
structure LinePort where
  mdcO : Level
  mdcOe : Bool
  mdioO : Level
  mdioOe : Bool
deriving DecidableEq, Repr

/-- The levels on the line port. -/
def linePort (s : State) : LinePort := ⟨s.mdcO, s.mdcOe, s.mdioO, s.mdioOe⟩

/-- `cmd_ready` and the response port (10_state.md R24, R25). -/
structure ResponsePort where
  cmdReady : Bool
  rspDone : Bool
  rspStatus : BitVec 2
  rspData : Word16
deriving DecidableEq, Repr

/-- The levels on the response port. -/
def responsePort (s : State) : ResponsePort := ⟨!s.busy, s.done, s.status.code, s.result⟩

/-- The level on the clock line: `MDC_O`, always driven (10_state.md R23). -/
def clockLevel (s : State) : Level := s.mdcO

/-- The level on the data line: `MDIO_O` while driven, else whatever the environment puts there, `ext`
(10_state.md R23). -/
def dataLevel (s : State) (ext : Level) : Level := if s.mdioOe then s.mdioO else ext

end Sys2Proof.Machine
end

