-- ==== Sys2Proof/Machine/Direct.lean ====
section
/-! DEFINITION. Direct register access (41_direct_access.md): `RDREG`, `WRREG`. For each command: its accept step (the
meaning `exec` calls), the transaction of each `XACT`, and its end-of-transaction logic. -/

namespace Sys2Proof.Machine

/-- The transaction (`rw`, `r5`, `w16`) of 40_codec.md R88: `read` is `rw`; `data` is unused in a read. -/
structure Transaction where
  read : Bool
  reg : Addr5
  data : Word16
deriving DecidableEq, Repr

/-- `MemRead` of a register: a read frame (41_direct_access.md R100). -/
def memRead (r : Addr5) : Transaction := ⟨true, r, 0⟩

/-- `MemWrite` of a register: a write frame (41_direct_access.md R101). -/
def memWrite (r : Addr5) (v : Word16) : Transaction := ⟨false, r, v⟩

/-- `RDREG d, r`: the accept step (10_state.md R24, 41_direct_access.md R100). -/
def execRdreg (a : CmdOperands) (s : State) : Result := .next (accept 0 (invalidRdreg a) a s)

/-- Transactions of `RDREG` by `XACT` (41_direct_access.md R100). -/
def xactRdreg (s : State) : Option Transaction :=
  if s.seq.xact = 0 then some (memRead (regadOf s)) else none

/-- End of `RDREG`'s transaction: complete with `RESULT <- SHR` (41_direct_access.md R100). -/
def endRdreg (s : State) : State := complete s.shr s

/-- `WRREG d, r, v`: the accept step (10_state.md R24, 41_direct_access.md R101). -/
def execWrreg (a : CmdOperands) (s : State) : Result := .next (accept 1 (invalidWrreg a) a s)

/-- Transactions of `WRREG` by `XACT` (41_direct_access.md R101). -/
def xactWrreg (s : State) : Option Transaction :=
  if s.seq.xact = 0 then some (memWrite (regadOf s) s.aVal) else none

/-- End of `WRREG`'s transaction: complete with `RESULT <- 0` (41_direct_access.md R101). -/
def endWrreg (s : State) : State := complete 0 s

end Sys2Proof.Machine
end

