-- ==== Sys2Proof/Machine/DeviceOps.lean ====
section
/-! DEFINITION. Device operations (43_device_ops.md): `CHKDEV`, `RSTDEV`, `LINK`; and the reserved command code
(30_encoding.md R69). These commands have no `XACT` 2: the engine stops before an end of one (log 9). -/

namespace Sys2Proof.Machine

/-- `CHKDEV d, hi, lo`: the accept step (10_state.md R24, 43_device_ops.md R120). -/
def execChkdev (a : CmdOperands) (s : State) : Result := .next (accept 4 (invalidChkdev a) a s)

/-- Transactions of `CHKDEV` by `XACT` (43_device_ops.md R120). -/
def xactChkdev (s : State) : Option Transaction :=
  match s.seq.xact with
  | 0 => some (memRead s.cfg.idHiReg)
  | 1 => some (memRead s.cfg.idLoReg)
  | 2 => none

/-- `M1 <- (SHR == A_VAL)` (10_state.md R18, 43_device_ops.md R120). -/
def setM1 (s : State) : State := { s with m1 := idHighMatches s }

/-- End of a transaction of `CHKDEV` (43_device_ops.md R120): after `XACT` 0 set `M1`, then complete with 0 if it is 0
and `ID_SHORT_CIRCUIT`, else start `XACT` 1; after `XACT` 1 complete with `M1 and SHR == A_VAL2`. -/
def endChkdev (s : State) : State :=
  match s.seq.xact with
  | 0 => if !(idHighMatches s) && s.cfg.idShortCircuit then complete (boolResult false) (setM1 s) else startFrame 1 (setM1 s)
  | 1 => complete (boolResult (s.m1 && idLowMatches s)) s
  | 2 => s

/-- `RSTDEV d`: the accept step (10_state.md R24, 43_device_ops.md R121). -/
def execRstdev (a : CmdOperands) (s : State) : Result := .next (accept 5 (invalidRstdev a) a s)

/-- Transactions of `RSTDEV` by `XACT` (43_device_ops.md R121). -/
def xactRstdev (s : State) : Option Transaction :=
  match s.seq.xact with
  | 0 => some (memWrite s.cfg.ctrlReg s.cfg.resetMask)
  | 1 => some (memRead s.cfg.ctrlReg)
  | 2 => none

/-- `POLLS <- POLLS + 1` (10_state.md R17, 43_device_ops.md R121). -/
def countPoll (s : State) : State := { s with polls := s.polls + 1 }

/-- The end of a poll read (43_device_ops.md R121): the bit-clear test comes before the limit test (60_exceptions.md R147),
and without a limit the same read frame starts again. -/
def endPoll (s : State) : State :=
  if !(resetBit s) then complete 0 s
  else if pollLimitReached s then finish (raise .timeout s)
  else startFrame 1 s

/-- End of a transaction of `RSTDEV` (43_device_ops.md R121). -/
def endRstdev (s : State) : State :=
  match s.seq.xact with
  | 0 => startFrame 1 s
  | 1 => endPoll (countPoll s)
  | 2 => s

/-- `LINK d`: the accept step (10_state.md R24, 43_device_ops.md R122). -/
def execLink (a : CmdOperands) (s : State) : Result := .next (accept 6 (invalidLink a) a s)

/-- Transactions of `LINK` by `XACT` (43_device_ops.md R122). -/
def xactLink (s : State) : Option Transaction :=
  match s.seq.xact with
  | 0 => some (memRead s.cfg.statusReg)
  | 1 => some (memRead s.cfg.statusReg)
  | 2 => none

/-- End of a transaction of `LINK` (43_device_ops.md R122): up at once if the bit is set, else a second read, whose bit
is the answer. -/
def endLink (s : State) : State :=
  match s.seq.xact with
  | 0 => if linkBit s then complete (boolResult true) s else startFrame 1 s
  | 1 => complete (boolResult (linkBit s)) s
  | 2 => s

/-- `cmd_op = 7`: "rejected exactly like an out-of-range operand" (30_encoding.md R69), always (60_exceptions.md R140). -/
def execReserved (a : CmdOperands) (s : State) : Result := .next (accept 7 true a s)

end Sys2Proof.Machine
end

