-- ==== Sys2Proof/Machine/Expansion.lean ====
section
/-! DEFINITION. Indirect (expansion register) access (42_expansion_access.md): `RDEXP`, `WREXP`. -/

namespace Sys2Proof.Machine

/-- The select write, `MemWrite(d, SEL_REG, extRegAddr | PAGE_SEL_BITS)` (42_expansion_access.md R110, R113). -/
def selectWrite (s : State) : Transaction := memWrite s.cfg.selReg (selectValue s)

/-- The deselect write, `MemWrite(d, SEL_REG, 0x0000)`: unconditional (42_expansion_access.md R112). -/
def deselectWrite (s : State) : Transaction := memWrite s.cfg.selReg 0x0000

/-- `RDEXP d, x`: the accept step (10_state.md R24, 42_expansion_access.md R111). -/
def execRdexp (a : CmdOperands) (s : State) : Result := .next (accept 2 (invalidRdexp a) a s)

/-- Transactions of `RDEXP` by `XACT` (42_expansion_access.md R111). -/
def xactRdexp (s : State) : Option Transaction :=
  match s.seq.xact with
  | 0 => some (selectWrite s)
  | 1 => some (memRead s.cfg.dataReg)
  | 2 => some (deselectWrite s)

/-- End of a transaction of `RDEXP`: the next frame, or after `XACT` 2 complete with the value read, which stayed in
`SHR` during the deselect (42_expansion_access.md R111). -/
def endRdexp (s : State) : State :=
  match s.seq.xact with
  | 0 => startFrame 1 s
  | 1 => startFrame 2 s
  | 2 => complete s.shr s

/-- `WREXP d, x, v`: the accept step (10_state.md R24, 42_expansion_access.md R110). -/
def execWrexp (a : CmdOperands) (s : State) : Result := .next (accept 3 (invalidWrexp a) a s)

/-- Transactions of `WREXP` by `XACT` (42_expansion_access.md R110). -/
def xactWrexp (s : State) : Option Transaction :=
  match s.seq.xact with
  | 0 => some (selectWrite s)
  | 1 => some (memWrite s.cfg.dataReg s.aVal)
  | 2 => some (deselectWrite s)

/-- End of a transaction of `WREXP`: the next frame, or after `XACT` 2 complete (42_expansion_access.md R110). -/
def endWrexp (s : State) : State :=
  match s.seq.xact with
  | 0 => startFrame 1 s
  | 1 => startFrame 2 s
  | 2 => complete 0 s

end Sys2Proof.Machine
end

