-- ==== Sys2Proof/Machine/Sequencer.lean ====
section
/-! DEFINITION. Which transaction `XACT` denotes for the command in `A_OP`, and the end-of-transaction logic of that
command (10_state.md R15, 40_codec.md R88). -/

namespace Sys2Proof.Machine

/-- The current transaction (40_codec.md R88; 41_direct_access.md to 43_device_ops.md). `none` for an (`A_OP`, `XACT`)
that names none. -/
def currentTransaction (s : State) : Option Transaction :=
  match s.aOp.toNat with
  | 0 => xactRdreg s
  | 1 => xactWrreg s
  | 2 => xactRdexp s
  | 3 => xactWrexp s
  | 4 => xactChkdev s
  | 5 => xactRstdev s
  | 6 => xactLink s
  | _ => none

/-- The current transaction as the frame the engine runs: "the device address is always `A_DEV`" (40_codec.md R88). -/
def currentFrame (s : State) : Option Instr :=
  match currentTransaction s with
  | none => none
  | some x => if x.read then some (.frameRead s.aDev x.reg) else some (.frameWrite s.aDev x.reg x.data)

/-- "the frame ends: run the command's end-of-transaction logic" (40_codec.md R88). -/
def commandEnd (s : State) : State :=
  match s.aOp.toNat with
  | 0 => endRdreg s
  | 1 => endWrreg s
  | 2 => endRdexp s
  | 3 => endWrexp s
  | 4 => endChkdev s
  | 5 => endRstdev s
  | 6 => endLink s
  | _ => s

/-- The end of the current transaction; a state with none has no such step (log 9). -/
def endOfTransaction (s : State) : Result :=
  if (currentTransaction s).isSome then .next (commandEnd s) else .fault .noTransaction

end Sys2Proof.Machine
end

