-- ==== Sys2Proof/Machine/Codec.lean ====
section
/-! DEFINITION. The bit and frame codec (40_codec.md): the procedures of R80 to R87, and the step table of R88, which is
the meaning of the two wire frames. -/

namespace Sys2Proof.Machine

/-! ### The procedures of R80 to R87 -/

/-- `EmitBit(b)` (40_codec.md R80). -/
def emitBit (b : Level) (s : State) : State := wrMdc false (wrMdc true (wrMdio b s))

/-- `ClockPulse()` (40_codec.md R81). -/
def clockPulse (s : State) : State := wrMdc false (wrMdc true s)

/-- `b <- SampleBit()` (40_codec.md R82). -/
def sampleBit (s : State) : Level × State := ((rdMdio s).1, wrMdc false (wrMdc true (rdMdio s).2))

/-- `EmitField(f, n)`: bits `n-1` down to 0 of `f` (40_codec.md R83). -/
def emitField (f : Nat) : Nat → State → State
  | 0, s => s
  | n + 1, s => emitField f n (emitBit (f.testBit n) s)

/-- "repeat `n` times" of the pseudocode. -/
def repeatOp (op : State → State) : Nat → State → State
  | 0, s => s
  | n + 1, s => repeatOp op n (op s)

/-- `EncodeFrame(op2, d5, r5)` (40_codec.md R84). -/
def encodeFrame (op2 : BitVec 2) (d r : Addr5) (s : State) : State :=
  emitField r.toNat 5 (emitField d.toNat 5 (emitField op2.toNat 2 (emitField startField.toNat 2
    (repeatOp (emitBit true) s.cfg.preambleLen (dirOutput s)))))

/-- `WriteFrame(d5, r5, v16)` (40_codec.md R85). -/
def writeFrame (d r : Addr5) (v : Word16) (s : State) : State :=
  dirInput (emitField v.toNat 16 (emitField s.cfg.taWr.toNat 2 (encodeFrame opWrite d r s)))

/-- `SHR <- ((SHR << 1) | b)[15:0]` (40_codec.md R87). -/
def shiftShr (b : Level) (s : State) : State := { s with shr := shiftIn s.shr b }

/-- `SHR <- 0`, when the read frame releases the data line (40_codec.md R86). -/
def clearShr (s : State) : State := { s with shr := 0 }

/-- One turn of the sampling loop: `b <- SampleBit()`, then the accumulation (40_codec.md R86). -/
def sampleInto (s : State) : State := shiftShr (sampleBit s).1 (sampleBit s).2

/-- `v16 <- ReadFrame(d5, r5)` (40_codec.md R86); the value is left in `SHR`. -/
def readFrame (d r : Addr5) (s : State) : State :=
  repeatOp sampleInto 16 (repeatOp clockPulse s.cfg.taRdClocks (clearShr (dirInput (encodeFrame opRead d r s))))

/-! ### The step table of R88 -/

/-- A field sent most significant bit first: `width` bits of `value` (30_encoding.md R61). -/
structure Field where
  width : Nat
  value : Nat
deriving DecidableEq, Repr

/-- What the engine does in a phase (40_codec.md R88). A driven phase carries its field and the phase, with its `CNT`,
that follows its last slot. -/
inductive Slot where
  | start
  | driven (f : Field) (nextPh : Phase) (nextCnt : Nat)
  | release
  | turnaround
  | sample
  | absent
deriving DecidableEq, Repr

/-- The fields and the order of the phases of a frame (40_codec.md R88, both small tables; 30_encoding.md R60). -/
def slotOf (c : Config) (d : Addr5) (x : Transaction) : Phase → Slot
  | .idle => .absent
  | .start => .start
  | .pre => .driven ⟨c.preambleLen, 2 ^ c.preambleLen - 1⟩ .st 2
  | .st => .driven ⟨2, startField.toNat⟩ .op 2
  | .op => .driven ⟨2, if x.read then opRead.toNat else opWrite.toNat⟩ .phyad 5
  | .phyad => .driven ⟨5, d.toNat⟩ .regad 5
  | .regad => if x.read then .driven ⟨5, x.reg.toNat⟩ .rel 0 else .driven ⟨5, x.reg.toNat⟩ .ta 2
  | .ta => if x.read then .turnaround else .driven ⟨2, c.taWr.toNat⟩ .data 16
  | .data => if x.read then .sample else .driven ⟨16, x.data.toNat⟩ .rel 0
  | .rel => .release

/-- `SEQ <- (XACT, ph, cnt, sub)`. -/
def enter (ph : Phase) (cnt : Nat) (sub : Sub) (s : State) : State := { s with seq := ⟨s.seq.xact, ph, cnt, sub⟩ }

/-- `SUB <- sub`. -/
def setSub (sub : Sub) (s : State) : State := enter s.seq.ph s.seq.cnt sub s

/-- `CNT <- CNT - 1`, `SUB <- sub`. -/
def nextSlot (sub : Sub) (s : State) : State := enter s.seq.ph (s.seq.cnt - 1) sub s

/-- Row `P_START, 0` (40_codec.md R88). -/
def startStep (s : State) : Result :=
  match s.seq.sub with
  | .data => .next (enter .pre s.cfg.preambleLen .data (dirOutput s))
  | .rise => .fault .seqNotInTable
  | .fall => .fault .seqNotInTable

/-- Rows "driven phase" 0, 1, 2 (40_codec.md R88). -/
def drivenStep (f : Field) (nextPh : Phase) (nextCnt : Nat) (s : State) : Result :=
  match s.seq.sub with
  | .data =>
    if s.seq.cnt = 0 then .fault .noFieldBit
    else .next (setSub .rise (wrMdio (f.value.testBit (s.seq.cnt - 1)) s))
  | .rise => .next (setSub .fall (wrMdc true s))
  | .fall =>
    if 1 < s.seq.cnt then .next (nextSlot .data (wrMdc false s))
    else .next (enter nextPh nextCnt .data (wrMdc false s))

/-- Rows `P_REL, 0` (40_codec.md R88): a write frame ends here; a read frame clears `SHR` and turns around. -/
def releaseStep (read : Bool) (s : State) : Result :=
  match s.seq.sub with
  | .data =>
    if read then .next (enter .ta s.cfg.taRdClocks .rise (clearShr (dirInput s)))
    else endOfTransaction (dirInput s)
  | .rise => .fault .seqNotInTable
  | .fall => .fault .seqNotInTable

/-- Rows `P_TA` of a read frame (40_codec.md R88): raw clock pulses, no data-line event. -/
def turnaroundStep (s : State) : Result :=
  match s.seq.sub with
  | .data => .fault .seqNotInTable
  | .rise => .next (setSub .fall (wrMdc true s))
  | .fall =>
    if 1 < s.seq.cnt then .next (nextSlot .rise (wrMdc false s))
    else .next (enter .data 16 .data (wrMdc false s))

/-- Rows `P_DATA` of a read frame (40_codec.md R88): "The shift and the OR happen in the same step as the `RD(MDIO)`
event" (R87). -/
def sampleStep (s : State) : Result :=
  match s.seq.sub with
  | .data => .next (setSub .rise (shiftShr (rdMdio s).1 (rdMdio s).2))
  | .rise => .next (setSub .fall (wrMdc true s))
  | .fall =>
    if 1 < s.seq.cnt then .next (nextSlot .data (wrMdc false s))
    else endOfTransaction (wrMdc false s)

/-- One row of the step table: the line event that `SEQ` names in the frame of transaction `x` to device `d`, and the
register updates of the same step (40_codec.md R88). -/
def frameStep (d : Addr5) (x : Transaction) (s : State) : Result :=
  match slotOf s.cfg d x s.seq.ph with
  | .start => startStep s
  | .driven f nextPh nextCnt => drivenStep f nextPh nextCnt s
  | .release => releaseStep x.read s
  | .turnaround => turnaroundStep s
  | .sample => sampleStep s
  | .absent => .fault .seqNotInTable

/-- `FRAME_WRITE d, r, v`: one line event of the write frame (40_codec.md R85, R88). "the engine steps only while
`BUSY = 1`" (10_state.md R16): an idle engine takes no step. -/
def execFrameWrite (d r : Addr5) (v : Word16) (s : State) : Result :=
  if s.busy then frameStep d (memWrite r v) s else .next s

/-- `FRAME_READ d, r`: one line event of the read frame (40_codec.md R86, R88). "the engine steps only while
`BUSY = 1`" (10_state.md R16): an idle engine takes no step. -/
def execFrameRead (d r : Addr5) (s : State) : Result :=
  if s.busy then frameStep d (memRead r) s else .next s

end Sys2Proof.Machine
end

