-- ==== Sys2Proof/Machine/Dispatch.lean ====
section
/-! DEFINITION. The meaning of every instruction, one arm each. -/

namespace Sys2Proof.Machine

def exec (i : Instr) (s : State) : Host.Outcome State Fault Refusal :=
  match i with
  | .rdreg a => Sys2Proof.Machine.execRdreg a s
  | .wrreg a => Sys2Proof.Machine.execWrreg a s
  | .rdexp a => Sys2Proof.Machine.execRdexp a s
  | .wrexp a => Sys2Proof.Machine.execWrexp a s
  | .chkdev a => Sys2Proof.Machine.execChkdev a s
  | .rstdev a => Sys2Proof.Machine.execRstdev a s
  | .link a => Sys2Proof.Machine.execLink a s
  | .reserved a => Sys2Proof.Machine.execReserved a s
  | .frameWrite d r v => Sys2Proof.Machine.execFrameWrite d r v s
  | .frameRead d r => Sys2Proof.Machine.execFrameRead d r s

end Sys2Proof.Machine
end

