-- ==== Sys2Proof/Machine/Fetch.lean ====
section
/-! DEFINITION. What a step runs: the frame of the current transaction while busy, the command on the host port when
idle (60_exceptions.md R147); and how an instruction is put there. -/

namespace Sys2Proof.Machine

/-- What there is to do in a step, in the order of priority of 60_exceptions.md R147. -/
inductive Work where
  /-- `rst = 1` -/
  | reset
  /-- the engine's frame, or an accepted command -/
  | run (i : Instr)
  /-- `BUSY = 0` and no command presented -/
  | wait
  /-- busy with no transaction (log 9) -/
  | stuck
  /-- a port value no host can present (log 10) -/
  | unpresentable
deriving DecidableEq, Repr

/-- The engine's frame (40_codec.md R88). -/
def engineWork (s : State) : Work :=
  match currentFrame s with
  | some i => .run i
  | none => .stuck

/-- The command on the host port: "accepted in a step where `cmd_valid = 1` and `BUSY = 0` and `rst = 0`"
(10_state.md R24). -/
def hostWork (s : State) : Work :=
  if (hostPins s).cmdValid then
    match decodeCommand s.cfg.argw (hostPins s).cmd with
    | .ok i => .run i
    | .error _ => .unpresentable
  else .wait

/-- `rst` first, then the engine, then the host's command (60_exceptions.md R147). -/
def work (s : State) : Work :=
  if (hostPins s).rst then .reset
  else if s.busy then engineWork s
  else hostWork s

/-- The block idle, its lines as 40_codec.md R90 has them, so that a command on the port is accepted. -/
def makeIdle (s : State) : State :=
  { s with busy := false, seq := Seq.idle, mdcO := false, mdioOe := false }

/-- The host presents `p` in the next step (10_state.md R24). -/
def presentCommand (p : CmdPorts) (s : State) : State :=
  { makeIdle s with hostIn := ⟨false, true, p⟩ :: s.hostIn }

/-- The engine at the start of the frame of a direct access: the state an accepted `RDREG` (`op` 0) or `WRREG` (`op` 1)
leaves (10_state.md R24), with no reset in the next step. -/
def presentFrame (op : BitVec 3) (d r : Addr5) (v : Word16) (s : State) : State :=
  { makeIdle s with
    hostIn := HostPins.quiet :: s.hostIn
    aOp := op
    aDev := d
    aReg := r.setWidth 16
    aVal := v
    done := false
    busy := true
    seq := Seq.startOf 0 }

/-- Put a code word where the next step takes its work from (log 6). A frame word that is no frame changes nothing. -/
def present (cw : CodeWord) (s : State) : State :=
  match cw with
  | .cmd p => presentCommand p s
  | .frame fw =>
    match decodeFrame s.cfg.taWr fw with
    | .ok (.frameWrite d r v) => presentFrame 1 d r v s
    | .ok (.frameRead d r) => presentFrame 0 d r s.aVal s
    | .ok _ => s
    | .error _ => s

/-- `present` for an opcode-table word. -/
def presentTableWord (nbits w : Nat) (s : State) : State :=
  match codeWordOfTable nbits w with
  | some cw => present cw s
  | none => s

end Sys2Proof.Machine
end

