-- ==== Sys2Proof/Machine/Step.lean ====
section
/-! DEFINITION. One step of the machine. -/

namespace Sys2Proof.Machine

/-- One step: read the host's pins, then reset, or one line event of the engine, or the accept of a command, or nothing
(60_exceptions.md R147, 70_reset_and_hazards.md R160). -/
def step (s : State) : Host.Outcome State Fault Refusal :=
  match work s with
  | .reset => .next (hardwareReset (nextInput s))
  | .run i => exec i (nextInput s)
  | .wait => .next (nextInput s)
  | .stuck => .fault .noTransaction
  | .unpresentable => .refused .operandWiderThanPort

/-- `s` with an opcode-table word put where the next step takes its instruction from: a command on the host port, a
frame as the engine's current transaction (log 6). -/
def State.withFetchWord (s : State) (nbits w : Nat) : State := presentTableWord nbits w s

end Sys2Proof.Machine
end

