-- ==== Sys2Proof/Safety.lean ====
section
/-! DEFINITION. What claims about the block are stated in: runs, the environment's coming answers, the line events of a
frame, the idle line state, the invariant of 10_state.md R33, and the legal line traces of 10_state.md R21. -/

namespace Sys2Proof.Machine

/-! ### Runs -/

/-- `n` steps, stopping at the first fault or refusal. -/
def run : Nat → State → Result
  | 0, s => .next s
  | n + 1, s =>
    match step s with
    | .next t => run n t
    | .fault r => .fault r
    | .refused r => .refused r

/-- An instruction, then `n` steps: a command and the engine steps that follow its accept. -/
def issue (i : Instr) (n : Nat) (s : State) : Result :=
  match exec i s with
  | .next t => run n t
  | .fault r => .fault r
  | .refused r => .refused r

/-- The host keeps `rst` at 0 in the next `n` steps. Commands it presents meanwhile are not excluded
(70_reset_and_hazards.md R170). -/
def NoReset (n : Nat) (s : State) : Prop := ∀ p ∈ s.hostIn.take n, p.rst = false

/-- `s` with the host's pins of `n` steps used up. -/
def dropInputs (n : Nat) (s : State) : State := { s with hostIn := s.hostIn.drop n }

/-! ### The environment's coming answers -/

/-- The next `n` answers to `RD(MDIO)`. -/
def Env.levels : Nat → Env → List Level
  | 0, _ => []
  | n + 1, e => e.next.1 :: Env.levels n e.next.2

/-- The environment after its next `n` answers. Irreducible: a proof cites its equations. -/
@[irreducible] def Env.skip : Nat → Env → Env
  | 0, e => e
  | n + 1, e => Env.skip n e.next.2

/-- "`sum over i of b_i * 2^(15 - i)`" (40_codec.md R87), for a list of any length: first sample most significant. -/
def samplesValue : List Level → Nat
  | [] => 0
  | b :: bs => b.toNat * 2 ^ bs.length + samplesValue bs

/-- The Register Value of a read frame with these samples (40_codec.md R87). Irreducible: nothing evaluates the sum
where a register is compared with it. -/
@[irreducible] def sampledWord (bs : List Level) : Word16 := BitVec.ofNat 16 (samplesValue bs)

/-- The environment after `k` read frames. -/
def Env.afterReads : Nat → Env → Env
  | 0, e => e
  | k + 1, e => Env.afterReads k (e.skip 16)

/-- The value the read frame after the next `k` ones will sample. -/
def Env.word (k : Nat) (e : Env) : Word16 := sampledWord ((Env.afterReads k e).levels 16)

/-! ### The line events of a frame (40_codec.md R80 to R86) -/

/-- The events of `EmitBit(b)` (40_codec.md R80). -/
def bitEvents (b : Level) : List LineEvent := [.wr .mdio b, .wr .mdc true, .wr .mdc false]

/-- The events of `ClockPulse()` (40_codec.md R81). -/
def pulseEvents : List LineEvent := [.wr .mdc true, .wr .mdc false]

/-- The events of `SampleBit()` answered `b` (40_codec.md R82). -/
def sampleEvents (b : Level) : List LineEvent := [.rd .mdio b, .wr .mdc true, .wr .mdc false]

/-- The events of `EmitField(f, n)` (40_codec.md R83). -/
def fieldEvents (f : Nat) : Nat → List LineEvent
  | 0 => []
  | n + 1 => bitEvents (f.testBit n) ++ fieldEvents f n

/-- The events of `EncodeFrame(op2, d5, r5)` (40_codec.md R84). -/
def headerEvents (c : Config) (op2 : BitVec 2) (d r : Addr5) : List LineEvent :=
  .dir .mdio .output :: (List.replicate c.preambleLen (bitEvents true)).flatten
    ++ fieldEvents 0b01 2 ++ fieldEvents op2.toNat 2 ++ fieldEvents d.toNat 5 ++ fieldEvents r.toNat 5

/-- The events of `WriteFrame(d5, r5, v16)` (40_codec.md R85). -/
def writeFrameEvents (c : Config) (d r : Addr5) (v : Word16) : List LineEvent :=
  headerEvents c 0b01 d r ++ fieldEvents c.taWr.toNat 2 ++ fieldEvents v.toNat 16 ++ [.dir .mdio .input]

/-- The events of `ReadFrame(d5, r5)` with these samples (40_codec.md R86). -/
def readFrameEvents (c : Config) (d r : Addr5) (samples : List Level) : List LineEvent :=
  headerEvents c 0b10 d r ++ [.dir .mdio .input]
    ++ (List.replicate c.taRdClocks pulseEvents).flatten ++ (samples.map sampleEvents).flatten

/-- The events of `k` read frames of one register, one after the other (43_device_ops.md R121). -/
def readsEvents (c : Config) (d r : Addr5) : Nat → Env → List LineEvent
  | 0, _ => []
  | k + 1, e => readFrameEvents c d r (e.levels 16) ++ readsEvents c d r k (e.skip 16)

/-- Line events of a write frame (40_codec.md R85, R89). -/
def writeFrameLen (c : Config) : Nat := 3 * c.preambleLen + 98

/-- Line events of a read frame (40_codec.md R86, R89). -/
def readFrameLen (c : Config) : Nat := 3 * c.preambleLen + 92 + 2 * c.taRdClocks

/-- The level the master drives at each `WR(MDC, 1)`, in order: `none` while it has released the data line. From the
enable and the level the data line starts with (30_encoding.md R60: "the level on the data line when `WR(MDC, 1)` of
pulse `k` is emitted"). -/
def risingLevels : Bool → Level → List LineEvent → List (Option Level)
  | _, _, [] => []
  | _, l, .dir .mdio .output :: es => risingLevels true l es
  | _, l, .dir .mdio .input :: es => risingLevels false l es
  | oe, _, .wr .mdio b :: es => risingLevels oe b es
  | oe, l, .wr .mdc true :: es => (if oe then some l else none) :: risingLevels oe l es
  | oe, l, _ :: es => risingLevels oe l es

/-- The bits of a frame word from the top one down, as driven. -/
def drivenBits (n : Nat) (w : Nat) : List (Option Level) :=
  (List.range n).map fun i => some (w.testBit (n - 1 - i))

/-! ### The idle line state and the response -/

/-- The idle line state (40_codec.md R90). -/
structure LinesIdle (s : State) : Prop where
  mdcOe : s.mdcOe = true
  mdcO : s.mdcO = false
  mdioOe : s.mdioOe = false

/-- Idle: ready for a command, lines idle (10_state.md R33, 60_exceptions.md R158). -/
structure Ready (s : State) : Prop where
  busy : s.busy = false
  seq : s.seq = Seq.idle
  lines : LinesIdle s

/-- What a command that was accepted leaves behind besides its operands. -/
structure Ending where
  /-- the line events of its frames, in order -/
  events : List LineEvent
  /-- the engine steps they took -/
  steps : Nat
  /-- `RESULT` -/
  value : Word16
  /-- `STATUS` -/
  code : Status
  /-- `M1` -/
  m1 : Bool
  /-- `POLLS` -/
  polls : Nat
  /-- `SHR` -/
  shr : Word16
  /-- what the environment will answer next -/
  env : Env
  /-- `MDIO_O`, the last bit driven (40_codec.md R90) -/
  lastBit : Level

/-- The whole state after an accepted command has run to its end from `s`: the latches hold its operands, `RESULT`,
`STATUS` and `DONE` are its response, the block is ready and the lines are idle (10_state.md R24, R33; 40_codec.md R90);
`MDC_OE` and the configuration are as they were. `hostIn` and `env` are fields of the model's own (logs 5, 4). -/
def ended (s : State) (op : BitVec 3) (a : CmdOperands) (e : Ending) : State :=
  { s with
    aOp := op
    aDev := BitVec.ofNat 5 a.dev
    aReg := BitVec.ofNat 16 a.reg
    aVal := BitVec.ofNat 16 a.val
    aVal2 := BitVec.ofNat 16 a.val2
    shr := e.shr
    result := e.value
    status := e.code
    done := true
    busy := false
    m1 := e.m1
    polls := e.polls
    seq := ⟨0, .idle, 0, .data⟩
    mdcO := false
    mdioOe := false
    mdioO := e.lastBit
    trace := s.trace ++ e.events
    hostIn := s.hostIn.drop e.steps
    env := e.env }

/-- What a rejected command leaves of an idle block: `STATUS` 1, `RESULT` 0, `DONE` 1, "and nothing else changes"
(10_state.md R24, 60_exceptions.md R140). -/
def rejected (s : State) : State := { s with status := .invalidArgument, result := 0, done := true }

/-- `RSTDEV` accepted in `s` with operands `a`, after its reset write and `k` polls that all showed the reset bit set: at
the start of the next poll (43_device_ops.md R121). `hostIn` and `env` are fields of the model's own (logs 5, 4). -/
def polling (s : State) (a : CmdOperands) (k : Nat) : State :=
  { s with
    aOp := 5
    aDev := BitVec.ofNat 5 a.dev
    aReg := BitVec.ofNat 16 a.reg
    aVal := BitVec.ofNat 16 a.val
    aVal2 := BitVec.ofNat 16 a.val2
    shr := if k = 0 then s.shr else s.env.word (k - 1)
    done := false
    busy := true
    m1 := false
    polls := k
    seq := ⟨1, .start, 0, .data⟩
    mdcO := false
    mdioOe := false
    mdioO := if k = 0 then s.cfg.resetMask.getLsbD 0 else s.cfg.ctrlReg.getLsbD 0
    trace := s.trace ++ (writeFrameEvents s.cfg (BitVec.ofNat 5 a.dev) s.cfg.ctrlReg s.cfg.resetMask
      ++ readsEvents s.cfg (BitVec.ofNat 5 a.dev) s.cfg.ctrlReg k s.env)
    hostIn := s.hostIn.drop (writeFrameLen s.cfg + k * readFrameLen s.cfg)
    env := s.env.afterReads k }

/-- How `RSTDEV` ends with its poll number `k + 1`, with a code (43_device_ops.md R121, 60_exceptions.md R141). -/
def pollEnding (s : State) (a : CmdOperands) (k : Nat) (code : Status) : Ending where
  events := writeFrameEvents s.cfg (BitVec.ofNat 5 a.dev) s.cfg.ctrlReg s.cfg.resetMask
    ++ readsEvents s.cfg (BitVec.ofNat 5 a.dev) s.cfg.ctrlReg (k + 1) s.env
  steps := writeFrameLen s.cfg + (k + 1) * readFrameLen s.cfg
  value := 0
  code := code
  m1 := false
  polls := k + 1
  shr := s.env.word k
  env := s.env.afterReads (k + 1)
  lastBit := s.cfg.ctrlReg.getLsbD 0

/-! ### The invariant (10_state.md R14, R17, R33) -/

/-- Where the engine may stand in the frame of transaction `x`, and the pins there (10_state.md R14, R33): the pulses of
the clock never overlap, the data line is driven exactly in the driven phases. -/
def FramePosition (s : State) (x : Transaction) : Prop :=
  match slotOf s.cfg s.aDev x s.seq.ph with
  | .start => s.seq.cnt = 0 ∧ s.seq.sub = .data ∧ s.mdcO = false ∧ s.mdioOe = false
  | .driven f _ _ =>
    1 ≤ s.seq.cnt ∧ s.seq.cnt ≤ f.width ∧ s.mdcO = decide (s.seq.sub = .fall) ∧ s.mdioOe = true
  | .release => s.seq.cnt = 0 ∧ s.seq.sub = .data ∧ s.mdcO = false ∧ s.mdioOe = true
  | .turnaround =>
    1 ≤ s.seq.cnt ∧ s.seq.cnt ≤ s.cfg.taRdClocks ∧ s.seq.sub ≠ .data ∧ s.mdcO = decide (s.seq.sub = .fall)
      ∧ s.mdioOe = false
  | .sample =>
    1 ≤ s.seq.cnt ∧ s.seq.cnt ≤ 16 ∧ s.mdcO = decide (s.seq.sub = .fall) ∧ s.mdioOe = false
  | .absent => False

/-- `POLLS` "never exceeds the limit" (30_encoding.md R72), and is below it while a command runs. -/
def PollsBounded (s : State) : Prop :=
  ∀ k, s.cfg.resetPollLimit = some k → s.polls ≤ k ∧ (s.busy = true → s.polls < k)

/-- The invariant: `MDC_OE = 1`; idle means `SEQ` idle and the lines idle; busy means `DONE = 0` and a position in the
frame of the current transaction (10_state.md R14, R16, R33). -/
structure Inv (s : State) : Prop where
  clockDriven : s.mdcOe = true
  idle : s.busy = false → Ready s
  busyNotDone : s.busy = true → s.done = false
  position : s.busy = true → ∃ x, currentTransaction s = some x ∧ FramePosition s x
  polls : PollsBounded s

/-! ### Legal line traces (10_state.md R21, R22, R33; 40_codec.md R80 to R82) -/

/-- The pins a trace leaves. -/
structure Pins where
  mdcO : Level
  mdioOe : Bool
  mdioO : Level
deriving DecidableEq, Repr

/-- The pins after reset (70_reset_and_hazards.md R161). -/
def Pins.reset : Pins := ⟨false, false, true⟩

/-- The pins after an event, `none` where the block never emits it: no `DIR(MDC, ·)`, no `RD(MDC)`, no `WR(MDIO, ·)`
while the data line is released, no `RD(MDIO)` while it is driven (10_state.md R21, R22); data-line events only while
the clock is low (40_codec.md R80, R82); no overlapping pulses (10_state.md R33). -/
def Pins.after (p : Pins) : LineEvent → Option Pins
  | .dir .mdio .output => if p.mdcO = false ∧ p.mdioOe = false then some { p with mdioOe := true } else none
  | .dir .mdio .input => if p.mdcO = false ∧ p.mdioOe = true then some { p with mdioOe := false } else none
  | .dir .mdc _ => none
  | .wr .mdio b => if p.mdcO = false ∧ p.mdioOe = true then some { p with mdioO := b } else none
  | .wr .mdc b => if p.mdcO = !b then some { p with mdcO := b } else none
  | .rd .mdio _ => if p.mdcO = false ∧ p.mdioOe = false then some p else none
  | .rd .mdc _ => none

/-- The pins after a whole trace since reset, `none` for a trace the block never emits. -/
def replay (p : Pins) : List LineEvent → Option Pins
  | [] => some p
  | e :: es =>
    match p.after e with
    | none => none
    | some q => replay q es

/-- The line trace is one the block may emit, and the pin registers are what it leaves. -/
def TraceLegal (s : State) : Prop := replay Pins.reset s.trace = some ⟨s.mdcO, s.mdioOe, s.mdioO⟩

/-! ### Operand ports a command ignores (30_encoding.md R66) -/

/-- `s` with the latches blanked that the command in `A_OP` never reads (10_state.md R11: "for an operand the command
ignores, the latch takes the low bits of the port and is never read"). -/
def maskIgnored (s : State) : State :=
  match s.aOp.toNat with
  | 0 => { s with aVal := 0, aVal2 := 0 }
  | 1 => { s with aVal2 := 0 }
  | 2 => { s with aVal := 0, aVal2 := 0 }
  | 3 => { s with aVal2 := 0 }
  | 4 => { s with aReg := 0 }
  | 5 => { s with aReg := 0, aVal := 0, aVal2 := 0 }
  | 6 => { s with aReg := 0, aVal := 0, aVal2 := 0 }
  | _ => s

end Sys2Proof.Machine
end

