-- ==== Sys2Proof/Certificates/Slice0/Obligations.lean ====
section
/-! DEFINITION. The statements about the block, for the provers: each from the numbered rules of spec/. A configuration
is arbitrary in every one of them (`s.cfg`, `c`): they hold for both values of `ID_SHORT_CIRCUIT`, every
`TA_RD_CLOCKS`, every `TA_WR`, and so on. -/

open Sys2Proof Sys2Proof.Machine

/-! ### Encoding -/

/-- Decoding the encoding of a well-formed instruction gives it back (30_encoding.md R62, R63, R65, R66). The model's
choices: the 18 bits of a read frame no master drives are encoded 0 (log 14); well formed means that the operands fit
the ports (log 10). -/
def Obligations.DecodeOfEncodeIsTheInstruction : Prop :=
  ∀ (c : Config) (i : Instr), i.wellFormed c.argw = true → decode c (encode c i) = .ok i

/-- Each code word has one meaning: a decoded command or write frame encodes to the very word it was read from, and a
decoded read frame to one with the same 14 driven bits (30_encoding.md R60, R61) and 0 in the 18 others; a frame word is
no command. The model's choices: the 18 bits of a read frame no master drives are ignored by the decoder and written 0 by
the encoder (log 14); what is decoded is well formed, because an operand that does not fit its port is refused
(log 10). -/
def Obligations.DecodedWordHasOneMeaning : Prop :=
  (∀ (c : Config) (w : CodeWord) (i : Instr), decode c w = .ok i → i.wellFormed c.argw = true) ∧
  (∀ (c : Config) (p : CmdPorts) (i : Instr), decode c (.cmd p) = .ok i → encode c i = .cmd p) ∧
  (∀ (c : Config) (fw : BitVec 32) (d r : Addr5) (v : Word16),
    decode c (.frame fw) = .ok (.frameWrite d r v) →
      fw = fwWrite c.taWr d r v ∧ encode c (.frameWrite d r v) = .frame fw) ∧
  (∀ (c : Config) (fw : BitVec 32) (d r : Addr5),
    decode c (.frame fw) = .ok (.frameRead d r) →
      fw.extractLsb' 18 14 = hRead d r ∧ encode c (.frameRead d r) = .frame (fw.extractLsb' 18 14 ++ 0#18)) ∧
  (∀ (c : Config) (fw : BitVec 32) (a : CmdOperands),
    decode c (.frame fw) ≠ .ok (.rdreg a) ∧ decode c (.frame fw) ≠ .ok (.wrreg a) ∧
    decode c (.frame fw) ≠ .ok (.rdexp a) ∧ decode c (.frame fw) ≠ .ok (.wrexp a) ∧
    decode c (.frame fw) ≠ .ok (.chkdev a) ∧ decode c (.frame fw) ≠ .ok (.rstdev a) ∧
    decode c (.frame fw) ≠ .ok (.link a) ∧ decode c (.frame fw) ≠ .ok (.reserved a))

/-- Words written out from the spec decode to the instruction they stand for (30_encoding.md R66; 95_test_vectors.md V4,
V5, V11). The model's choices: a one-byte command word is read in its low 3 bits, and the bits of a read frame no master
drives are ignored (log 14); the operand ports of a command word are zeros (log 6); the words are decoded under the
configuration of the reset state (log 3). -/
def Obligations.SpecWordsDecode : Prop :=
  decodeTableWord 8 0b000 = some (.rdreg ⟨0, 0, 0, 0⟩) ∧
  decodeTableWord 8 0b011 = some (.wrexp ⟨0, 0, 0, 0⟩) ∧
  decodeTableWord 8 0b101 = some (.rstdev ⟨0, 0, 0, 0⟩) ∧
  decodeTableWord 8 0b111 = some (.reserved ⟨0, 0, 0, 0⟩) ∧
  decodeTableWord 32 0b01010010110001101010010111000011 = some (.frameWrite 5 0x11 0xA5C3) ∧
  decodeTableWord 32 0b01011000000001100000000000000001 = some (.frameWrite 16 1 1) ∧
  decodeTableWord 32 0b01101111111111000000000000000000 = some (.frameRead 31 31)

/-- A frame word with another start field or with opcode field `00` or `11` is no frame (30_encoding.md R69). -/
def Obligations.OtherFramesAreRejected : Prop :=
  ∀ (c : Config) (fw : BitVec 32),
    (fw.extractLsb' 30 2 ≠ 0b01#2 → decode c (.frame fw) = .error .badStart) ∧
    (fw.extractLsb' 30 2 = 0b01#2 → fw.extractLsb' 28 2 = 0b00#2 ∨ fw.extractLsb' 28 2 = 0b11#2 →
      decode c (.frame fw) = .error .badOpcode)

/-! ### The step -/

/-- A step runs the decoded instruction (60_exceptions.md R147): with `rst = 0`, an idle block runs the command its
host port decodes to, a busy one the frame of its current transaction (clauses 1 and 2). The model's choices: every step
uses up one record of the host's pins (log 5); an opcode-table word is put where the next step takes its instruction from
by `withFetchWord`, and the very next step runs it (clauses 3 and 4, wholly log 6). -/
def Obligations.StepRunsTheDecodedInstruction : Prop :=
  (∀ (s : State) (p : CmdPorts) (i : Instr), s.busy = false → hostPins s = ⟨false, true, p⟩ →
    decode s.cfg (.cmd p) = .ok i → step s = exec i (nextInput s)) ∧
  (∀ (s : State) (x : Transaction), s.busy = true → (hostPins s).rst = false → currentTransaction s = some x →
    step s = exec (if x.read then .frameRead s.aDev x.reg else .frameWrite s.aDev x.reg x.data) (nextInput s)) ∧
  (∀ (s : State) (w : Nat) (i : Instr), decode s.cfg (.cmd ⟨BitVec.ofNat 3 w, ⟨0, 0, 0, 0⟩⟩) = .ok i →
    step (s.withFetchWord 8 w) = exec i (nextInput (s.withFetchWord 8 w))) ∧
  (∀ (s : State) (w : Nat) (i : Instr), decode s.cfg (.frame (BitVec.ofNat 32 w)) = .ok i →
    step (s.withFetchWord 32 w) = exec i (nextInput (s.withFetchWord 32 w)))

/-- Reset: in any state, also in mid-frame, a step with `rst = 1` leaves every register at its reset value and the line
trace empty (70_reset_and_hazards.md R160, R161); the block is then ready and shows no response (R160). The model's
choices: the configuration and the environment, fields of the model's own, stay (log 15), and the step uses up one record
of the host's pins (log 5). -/
def Obligations.ResetPinResetsEveryRegister : Prop :=
  ∀ (s : State), (hostPins s).rst = true → ∃ t, step s = .next t ∧
    t.aOp = 0 ∧ t.aDev = 0 ∧ t.aReg = 0 ∧ t.aVal = 0 ∧ t.aVal2 = 0 ∧ t.shr = 0 ∧ t.result = 0 ∧ t.status = .ok ∧
    t.done = false ∧ t.busy = false ∧ t.m1 = false ∧ t.polls = 0 ∧ t.seq = ⟨0, .idle, 0, .data⟩ ∧
    t.mdcOe = true ∧ t.mdcO = false ∧ t.mdioOe = false ∧ t.mdioO = true ∧ t.trace = [] ∧
    responsePort t = ⟨true, false, 0, 0⟩ ∧ t.cfg = s.cfg ∧ t.env = s.env ∧ t.hostIn = s.hostIn.tail

/-- The state after reset (70_reset_and_hazards.md R161). -/
def Obligations.ResetStateValues : Prop :=
  State.reset.aOp = 0 ∧ State.reset.aDev = 0 ∧ State.reset.aReg = 0 ∧ State.reset.aVal = 0 ∧ State.reset.aVal2 = 0 ∧
  State.reset.shr = 0 ∧ State.reset.result = 0 ∧ State.reset.status = .ok ∧ State.reset.done = false ∧
  State.reset.busy = false ∧ State.reset.m1 = false ∧ State.reset.polls = 0 ∧
  State.reset.seq = ⟨0, .idle, 0, .data⟩ ∧ State.reset.mdcOe = true ∧ State.reset.mdcO = false ∧
  State.reset.mdioOe = false ∧ State.reset.mdioO = true ∧ State.reset.trace = []

/-- An idle block to which no command is presented does nothing (00_scope.md R8: the engine "is otherwise idle"). That
the step uses up one record of the host's pins is the model's choice (log 5). -/
def Obligations.IdleBlockWaits : Prop :=
  ∀ (s : State), s.busy = false → (hostPins s).rst = false → (hostPins s).cmdValid = false →
    step s = .next { s with hostIn := s.hostIn.tail }

/-! ### The accept step -/

/-- The accept step of every command in an idle block (10_state.md R24, 60_exceptions.md R140). A command is invalid
exactly when an operand it uses is out of its range, the reserved code always (30_encoding.md R69). A valid one is
accepted: the latches take the low bits of the ports, `DONE`, `M1` and `POLLS` are cleared, `BUSY` is set, `SEQ` is at the
start of the first frame, and nothing else changes. An invalid one is rejected: `STATUS` is `INVALID_ARGUMENT`,
`RESULT` 0, `DONE` 1, and nothing else changes. Neither makes a line event. -/
def Obligations.AcceptStepOfEveryCommand : Prop :=
  ∀ (s : State) (a : CmdOperands), s.busy = false →
    let accepted (op : BitVec 3) : Result := .next
      { s with
        aOp := op, aDev := BitVec.ofNat 5 a.dev, aReg := BitVec.ofNat 16 a.reg, aVal := BitVec.ofNat 16 a.val,
        aVal2 := BitVec.ofNat 16 a.val2, done := false, m1 := false, polls := 0, busy := true,
        seq := ⟨0, .start, 0, .data⟩ }
    (exec (.rdreg a) s = if a.dev > 31 ∨ a.reg > 31 then .next (rejected s) else accepted 0) ∧
    (exec (.wrreg a) s = if a.dev > 31 ∨ a.reg > 31 ∨ a.val > 0xFFFF then .next (rejected s) else accepted 1) ∧
    (exec (.rdexp a) s = if a.dev > 31 ∨ a.reg > 0xFFFF then .next (rejected s) else accepted 2) ∧
    (exec (.wrexp a) s = if a.dev > 31 ∨ a.reg > 0xFFFF ∨ a.val > 0xFFFF then .next (rejected s) else accepted 3) ∧
    (exec (.chkdev a) s = if a.dev > 31 ∨ a.val > 0xFFFF ∨ a.val2 > 0xFFFF then .next (rejected s) else accepted 4) ∧
    (exec (.rstdev a) s = if a.dev > 31 then .next (rejected s) else accepted 5) ∧
    (exec (.link a) s = if a.dev > 31 then .next (rejected s) else accepted 6) ∧
    exec (.reserved a) s = .next (rejected s) ∧
    responsePort (rejected s) = ⟨true, true, 1, 0⟩

/-- While `BUSY = 1` a command presented is neither accepted nor queued: the step is the one without it
(70_reset_and_hazards.md R170, 10_state.md R24), and a command changes nothing in a busy block (log 16). -/
def Obligations.BusyBlockIgnoresCommands : Prop :=
  (∀ (s : State) (p q : CmdPorts) (v w : Bool) (rest : List HostPins), s.busy = true →
    step { s with hostIn := ⟨false, v, p⟩ :: rest } = step { s with hostIn := ⟨false, w, q⟩ :: rest }) ∧
  (∀ (s : State) (op : BitVec 3) (a : CmdOperands), s.busy = true → exec (commandOf op a) s = .next s)

/-! ### The frames, one line event at a time -/

/-- The step table of a write frame, row by row (40_codec.md R88), with the fields of 30_encoding.md R60: in every busy
state at a row of the table, `FRAME_WRITE d, r, v` emits that row's line event, makes that row's updates and changes
nothing else; after the release it runs the command's end-of-transaction logic. -/
def Obligations.WriteFrameStepTable : Prop :=
  ∀ (s : State) (d r : Addr5) (v : Word16), s.busy = true →
    (s.seq.ph = .start → s.seq.sub = .data → exec (.frameWrite d r v) s = .next
      { s with
        mdioOe := true, trace := s.trace ++ [.dir .mdio .output],
        seq := ⟨s.seq.xact, .pre, s.cfg.preambleLen, .data⟩ }) ∧
    (∀ row ∈ [(Phase.pre, 2 ^ s.cfg.preambleLen - 1, Phase.st, 2), (.st, 0b01, .op, 2), (.op, 0b01, .phyad, 5),
        (.phyad, d.toNat, .regad, 5), (.regad, r.toNat, .ta, 2), (.ta, s.cfg.taWr.toNat, .data, 16),
        (.data, v.toNat, .rel, 0)], s.seq.ph = row.1 →
      (s.seq.sub = .data → 1 ≤ s.seq.cnt → exec (.frameWrite d r v) s = .next
        { s with
          mdioO := row.2.1.testBit (s.seq.cnt - 1),
          trace := s.trace ++ [.wr .mdio (row.2.1.testBit (s.seq.cnt - 1))],
          seq := { s.seq with sub := .rise } }) ∧
      (s.seq.sub = .rise → exec (.frameWrite d r v) s = .next
        { s with mdcO := true, trace := s.trace ++ [.wr .mdc true], seq := { s.seq with sub := .fall } }) ∧
      (s.seq.sub = .fall → 1 < s.seq.cnt → exec (.frameWrite d r v) s = .next
        { s with
          mdcO := false, trace := s.trace ++ [.wr .mdc false],
          seq := { s.seq with cnt := s.seq.cnt - 1, sub := .data } }) ∧
      (s.seq.sub = .fall → s.seq.cnt ≤ 1 → exec (.frameWrite d r v) s = .next
        { s with
          mdcO := false, trace := s.trace ++ [.wr .mdc false],
          seq := ⟨s.seq.xact, row.2.2.1, row.2.2.2, .data⟩ })) ∧
    (s.seq.ph = .rel → s.seq.sub = .data → exec (.frameWrite d r v) s =
      endOfTransaction { s with mdioOe := false, trace := s.trace ++ [.dir .mdio .input] })

/-- The step table of a read frame, row by row (40_codec.md R88): the header as in a write frame with the other opcode;
the release clears `SHR`; the turnaround only pulses the clock; a sample shifts the environment's answer into `SHR` in
the same step (R87); after the sixteenth pulse the command's end-of-transaction logic runs. -/
def Obligations.ReadFrameStepTable : Prop :=
  ∀ (s : State) (d r : Addr5), s.busy = true →
    (s.seq.ph = .start → s.seq.sub = .data → exec (.frameRead d r) s = .next
      { s with
        mdioOe := true, trace := s.trace ++ [.dir .mdio .output],
        seq := ⟨s.seq.xact, .pre, s.cfg.preambleLen, .data⟩ }) ∧
    (∀ row ∈ [(Phase.pre, 2 ^ s.cfg.preambleLen - 1, Phase.st, 2), (.st, 0b01, .op, 2), (.op, 0b10, .phyad, 5),
        (.phyad, d.toNat, .regad, 5), (.regad, r.toNat, .rel, 0)], s.seq.ph = row.1 →
      (s.seq.sub = .data → 1 ≤ s.seq.cnt → exec (.frameRead d r) s = .next
        { s with
          mdioO := row.2.1.testBit (s.seq.cnt - 1),
          trace := s.trace ++ [.wr .mdio (row.2.1.testBit (s.seq.cnt - 1))],
          seq := { s.seq with sub := .rise } }) ∧
      (s.seq.sub = .rise → exec (.frameRead d r) s = .next
        { s with mdcO := true, trace := s.trace ++ [.wr .mdc true], seq := { s.seq with sub := .fall } }) ∧
      (s.seq.sub = .fall → 1 < s.seq.cnt → exec (.frameRead d r) s = .next
        { s with
          mdcO := false, trace := s.trace ++ [.wr .mdc false],
          seq := { s.seq with cnt := s.seq.cnt - 1, sub := .data } }) ∧
      (s.seq.sub = .fall → s.seq.cnt ≤ 1 → exec (.frameRead d r) s = .next
        { s with
          mdcO := false, trace := s.trace ++ [.wr .mdc false],
          seq := ⟨s.seq.xact, row.2.2.1, row.2.2.2, .data⟩ })) ∧
    (s.seq.ph = .rel → s.seq.sub = .data → exec (.frameRead d r) s = .next
      { s with
        mdioOe := false, shr := 0, trace := s.trace ++ [.dir .mdio .input],
        seq := ⟨s.seq.xact, .ta, s.cfg.taRdClocks, .rise⟩ }) ∧
    (s.seq.ph = .ta → s.seq.sub = .rise → exec (.frameRead d r) s = .next
      { s with mdcO := true, trace := s.trace ++ [.wr .mdc true], seq := { s.seq with sub := .fall } }) ∧
    (s.seq.ph = .ta → s.seq.sub = .fall → exec (.frameRead d r) s = .next
      { s with
        mdcO := false, trace := s.trace ++ [.wr .mdc false],
        seq := if 1 < s.seq.cnt then { s.seq with cnt := s.seq.cnt - 1, sub := .rise }
          else ⟨s.seq.xact, .data, 16, .data⟩ }) ∧
    (s.seq.ph = .data → s.seq.sub = .data → exec (.frameRead d r) s = .next
      { s with
        shr := (s.shr <<< 1) ||| BitVec.ofNat 16 s.env.next.1.toNat, env := s.env.next.2,
        trace := s.trace ++ [.rd .mdio s.env.next.1], seq := { s.seq with sub := .rise } }) ∧
    (s.seq.ph = .data → s.seq.sub = .rise → exec (.frameRead d r) s = .next
      { s with mdcO := true, trace := s.trace ++ [.wr .mdc true], seq := { s.seq with sub := .fall } }) ∧
    (s.seq.ph = .data → s.seq.sub = .fall → 1 < s.seq.cnt → exec (.frameRead d r) s = .next
      { s with
        mdcO := false, trace := s.trace ++ [.wr .mdc false],
        seq := { s.seq with cnt := s.seq.cnt - 1, sub := .data } }) ∧
    (s.seq.ph = .data → s.seq.sub = .fall → s.seq.cnt ≤ 1 → exec (.frameRead d r) s =
      endOfTransaction { s with mdcO := false, trace := s.trace ++ [.wr .mdc false] })

/-- "the engine steps only while `BUSY = 1`" (10_state.md R16): an idle engine runs no frame. -/
def Obligations.IdleEngineTakesNoStep : Prop :=
  ∀ (s : State) (d r : Addr5) (v : Word16), s.busy = false →
    exec (.frameWrite d r v) s = .next s ∧ exec (.frameRead d r) s = .next s

/-- The end-of-transaction logic of every command, by `XACT` (41_direct_access.md R100, R101; 42_expansion_access.md R110,
R111; 43_device_ops.md R120, R121, R122; the order of the tests of a poll: 60_exceptions.md R147): the next frame, or
the completion with its `RESULT` and `STATUS`. Nothing else changes. -/
def Obligations.EndOfTransactionLogic : Prop :=
  ∀ (s : State),
    let next (k : Fin 3) (t : State) : Result := .next { t with seq := ⟨k, .start, 0, .data⟩ }
    let finished (v : Word16) (code : Status) (t : State) : Result :=
      .next { t with result := v, status := code, done := true, busy := false, seq := ⟨0, .idle, 0, .data⟩ }
    (s.aOp = 0 → s.seq.xact = 0 → endOfTransaction s = finished s.shr .ok s) ∧
    (s.aOp = 1 → s.seq.xact = 0 → endOfTransaction s = finished 0 .ok s) ∧
    (s.aOp = 2 ∨ s.aOp = 3 → s.seq.xact = 0 → endOfTransaction s = next 1 s) ∧
    (s.aOp = 2 ∨ s.aOp = 3 → s.seq.xact = 1 → endOfTransaction s = next 2 s) ∧
    (s.aOp = 2 → s.seq.xact = 2 → endOfTransaction s = finished s.shr .ok s) ∧
    (s.aOp = 3 → s.seq.xact = 2 → endOfTransaction s = finished 0 .ok s) ∧
    (s.aOp = 4 → s.seq.xact = 0 → s.shr ≠ s.aVal → s.cfg.idShortCircuit = true →
      endOfTransaction s = finished 0 .ok { s with m1 := false }) ∧
    (s.aOp = 4 → s.seq.xact = 0 → s.shr = s.aVal ∨ s.cfg.idShortCircuit = false →
      endOfTransaction s = next 1 { s with m1 := decide (s.shr = s.aVal) }) ∧
    (s.aOp = 4 → s.seq.xact = 1 → s.m1 = true → s.shr = s.aVal2 → endOfTransaction s = finished 1 .ok s) ∧
    (s.aOp = 4 → s.seq.xact = 1 → s.m1 = false ∨ s.shr ≠ s.aVal2 → endOfTransaction s = finished 0 .ok s) ∧
    (s.aOp = 5 → s.seq.xact = 0 → endOfTransaction s = next 1 s) ∧
    (s.aOp = 5 → s.seq.xact = 1 → s.shr &&& s.cfg.resetMask = 0 →
      endOfTransaction s = finished 0 .ok { s with polls := s.polls + 1 }) ∧
    (s.aOp = 5 → s.seq.xact = 1 → s.shr &&& s.cfg.resetMask ≠ 0 → s.cfg.resetPollLimit = some (s.polls + 1) →
      endOfTransaction s = finished 0 .timeout { s with polls := s.polls + 1 }) ∧
    (s.aOp = 5 → s.seq.xact = 1 → s.shr &&& s.cfg.resetMask ≠ 0 → s.cfg.resetPollLimit ≠ some (s.polls + 1) →
      endOfTransaction s = next 1 { s with polls := s.polls + 1 }) ∧
    (s.aOp = 6 → s.seq.xact = 0 ∨ s.seq.xact = 1 → s.shr &&& s.cfg.linkMask ≠ 0 →
      endOfTransaction s = finished 1 .ok s) ∧
    (s.aOp = 6 → s.seq.xact = 0 → s.shr &&& s.cfg.linkMask = 0 → endOfTransaction s = next 1 s) ∧
    (s.aOp = 6 → s.seq.xact = 1 → s.shr &&& s.cfg.linkMask = 0 → endOfTransaction s = finished 0 .ok s)

/-- The frame of a step of a frame, whatever the row: the configuration, the five latches, `MDC_OE` and the host's pins
never change; a write frame reads nothing from the environment and leaves `SHR` (20_memory.md R47, 10_state.md R12); a
step that leaves the block busy leaves `RESULT`, `STATUS`, `DONE` (10_state.md R13); every step adds exactly one line
event (10_state.md R15). -/
def Obligations.FrameStepsLeaveTheRestAlone : Prop :=
  ∀ (s t : State) (d r : Addr5) (v : Word16), s.busy = true →
    (exec (.frameWrite d r v) s = .next t → t.shr = s.shr ∧ t.env = s.env) ∧
    (exec (.frameWrite d r v) s = .next t ∨ exec (.frameRead d r) s = .next t →
      t.cfg = s.cfg ∧ t.aOp = s.aOp ∧ t.aDev = s.aDev ∧ t.aReg = s.aReg ∧ t.aVal = s.aVal ∧ t.aVal2 = s.aVal2 ∧
      t.mdcOe = s.mdcOe ∧ t.hostIn = s.hostIn ∧
      (t.busy = true → t.result = s.result ∧ t.status = s.status ∧ t.done = s.done) ∧
      (t.busy = false → t.done = true ∧ t.seq = Seq.idle) ∧
      ∃ e, t.trace = s.trace ++ [e])

/-- In the one step between a frame's `DIR(MDIO, Output)` and its first `WR(MDIO, 1)` the data line carries the stale
`MDIO_O`, with the clock low (40_codec.md R84, R90; 70_reset_and_hazards.md R177, the spec's inference from them); the
step after it drives the preamble's 1, with the clock still low. Of a write frame and of a read frame. -/
def Obligations.StaleLevelAtFrameStart : Prop :=
  ∀ (s : State) (d r : Addr5) (v : Word16), s.busy = true → s.seq = ⟨s.seq.xact, .start, 0, .data⟩ → s.mdcO = false →
    (∃ t u, exec (.frameWrite d r v) s = .next t ∧ (∀ ext, dataLevel t ext = s.mdioO) ∧ clockLevel t = false ∧
      exec (.frameWrite d r v) t = .next u ∧ (∀ ext, dataLevel u ext = true) ∧ clockLevel u = false) ∧
    (∃ t u, exec (.frameRead d r) s = .next t ∧ (∀ ext, dataLevel t ext = s.mdioO) ∧ clockLevel t = false ∧
      exec (.frameRead d r) t = .next u ∧ (∀ ext, dataLevel u ext = true) ∧ clockLevel u = false)

/-! ### The frames as procedures, and the engine against them -/

/-- What `WriteFrame` does as a whole (40_codec.md R85): its line events, the idle line state it ends in, and `MDIO_O`
left at `v16[0]` (R90); `SHR` and everything else unchanged. -/
def Obligations.WriteFrameEffect : Prop :=
  ∀ (s : State) (d r : Addr5) (v : Word16),
    writeFrame d r v s =
      { s with
        trace := s.trace ++ writeFrameEvents s.cfg d r v, mdcO := false, mdioOe := false, mdioO := v.getLsbD 0 }

/-- What `ReadFrame` does as a whole (40_codec.md R86, R87): its line events, `SHR` the value of its 16 samples, first
sample most significant; the idle line state, `MDIO_O` left at `r5[0]` (R90); nothing else changes. -/
def Obligations.ReadFrameEffect : Prop :=
  ∀ (s : State) (d r : Addr5),
    readFrame d r s =
      { s with
        trace := s.trace ++ readFrameEvents s.cfg d r (s.env.levels 16), shr := sampledWord (s.env.levels 16),
        env := s.env.skip 16, mdcO := false, mdioOe := false, mdioO := r.getLsbD 0 }

/-- The engine, one line event per step, against the procedure (40_codec.md R88: the table and the pseudocode produce
the same): from the start of a write transaction, `FRAME_WRITE` and the `3P + 97` steps after it are `WriteFrame` and then
the command's end-of-transaction logic, whatever commands the host presents meanwhile. -/
def Obligations.EngineRefinesWriteFrame : Prop :=
  ∀ (s : State) (k : Fin 3) (r : Addr5) (v : Word16), s.busy = true → s.seq = ⟨k, .start, 0, .data⟩ →
    currentTransaction s = some ⟨false, r, v⟩ → NoReset (3 * s.cfg.preambleLen + 97) s →
    ∃ t, exec (.frameWrite s.aDev r v) s = .next t ∧
      run (3 * s.cfg.preambleLen + 97) t =
        .next (commandEnd (dropInputs (3 * s.cfg.preambleLen + 97) (writeFrame s.aDev r v s)))

/-- The engine against `ReadFrame` (40_codec.md R88): from the start of a read transaction, `FRAME_READ` and the
`3P + 91 + 2T` steps after it are `ReadFrame` and then the command's end-of-transaction logic. -/
def Obligations.EngineRefinesReadFrame : Prop :=
  ∀ (s : State) (k : Fin 3) (x : Transaction), s.busy = true → s.seq = ⟨k, .start, 0, .data⟩ →
    currentTransaction s = some x → x.read = true →
    NoReset (3 * s.cfg.preambleLen + 91 + 2 * s.cfg.taRdClocks) s →
    ∃ t, exec (.frameRead s.aDev x.reg) s = .next t ∧
      run (3 * s.cfg.preambleLen + 91 + 2 * s.cfg.taRdClocks) t =
        .next (commandEnd (dropInputs (3 * s.cfg.preambleLen + 91 + 2 * s.cfg.taRdClocks) (readFrame s.aDev x.reg s)))

/-- The counts of 40_codec.md R89, for every address and value: `DIR`, `WR(MDIO)`, `RD(MDIO)`, `WR(MDC)` events, clock
pulses and the total, of both frames. -/
def Obligations.FrameEventCounts : Prop :=
  ∀ (s : State) (d r : Addr5) (v : Word16),
    let isDir (e : LineEvent) : Bool := match e with | .dir _ _ => true | _ => false
    let isWrMdio (e : LineEvent) : Bool := match e with | .wr .mdio _ => true | _ => false
    let isRdMdio (e : LineEvent) : Bool := match e with | .rd .mdio _ => true | _ => false
    let isWrMdc (e : LineEvent) : Bool := match e with | .wr .mdc _ => true | _ => false
    let P := s.cfg.preambleLen
    let T := s.cfg.taRdClocks
    (∃ es, (writeFrame d r v s).trace = s.trace ++ es ∧ es.countP isDir = 2 ∧ es.countP isWrMdio = P + 32 ∧
      es.countP isRdMdio = 0 ∧ es.countP isWrMdc = 2 * (P + 32) ∧ es.count (.wr .mdc true) = P + 32 ∧
      es.length = 3 * P + 98) ∧
    (∃ es, (readFrame d r s).trace = s.trace ++ es ∧ es.countP isDir = 2 ∧ es.countP isWrMdio = P + 14 ∧
      es.countP isRdMdio = 16 ∧ es.countP isWrMdc = 2 * (P + 30 + T) ∧ es.count (.wr .mdc true) = P + 30 + T ∧
      es.length = 3 * P + 92 + 2 * T)

/-- What a write frame puts on the wire (30_encoding.md R62): after `PREAMBLE_LEN` ones the master drives all 32 bits of
`FW_write(d, r, v) = 0x50000000 | (d << 23) | (r << 18) | (TA_WR << 16) | v`, bit 31 first, one at each clock pulse
(R60, R61), whatever level it found. -/
def Obligations.WriteFrameOnTheWire : Prop :=
  ∀ (c : Config) (d r : Addr5) (v : Word16),
    (∀ (oe : Bool) (l : Level), risingLevels oe l (writeFrameEvents c d r v) =
      List.replicate c.preambleLen (some true) ++ drivenBits 32 (fwWrite c.taWr d r v).toNat) ∧
    fwWrite c.taWr d r v =
      0x50000000#32 ||| (d.setWidth 32 <<< 23) ||| (r.setWidth 32 <<< 18) ||| (c.taWr.setWidth 32 <<< 16)
        ||| v.setWidth 32

/-- What a read frame puts on the wire (30_encoding.md R63): after `PREAMBLE_LEN` ones the master drives only the 14 bits
of `H_read(d, r) = 0x1800 | (d << 5) | r`, the top one first, and nothing at the `TA_RD_CLOCKS + 16` pulses after them.
The same 14 bits of a write frame are `H_write(d, r) = 0x1400 | (d << 5) | r`. -/
def Obligations.ReadFrameOnTheWire : Prop :=
  ∀ (c : Config) (d r : Addr5),
    (∀ (bs : List Level) (oe : Bool) (l : Level), bs.length = 16 →
      risingLevels oe l (readFrameEvents c d r bs) =
        List.replicate c.preambleLen (some true) ++ drivenBits 14 (hRead d r).toNat
          ++ List.replicate (c.taRdClocks + 16) none) ∧
    hRead d r = 0x1800#14 ||| (d.setWidth 14 <<< 5) ||| r.setWidth 14 ∧
    ∀ v, (fwWrite c.taWr d r v).extractLsb' 18 14 = 0x1400#14 ||| (d.setWidth 14 <<< 5) ||| r.setWidth 14

/-- After 16 steps of the accumulation, from any start value, `SHR` depends only on the 16 samples
(30_encoding.md R72). -/
def Obligations.SixteenShiftsForgetTheStart : Prop :=
  ∀ (w : Word16) (bs : List Level), bs.length = 16 → bs.foldl shiftIn w = BitVec.ofNat 16 (samplesValue bs)

/-! ### Whole commands -/

/-- `RDREG d, r` (41_direct_access.md R100): rejected with a bad operand; else accepted, then exactly one read frame to
(`d`, `r`), and `RESULT` is the value sampled, whatever it is, `STATUS` `OK`. -/
def Obligations.RdregReadsOneRegister : Prop :=
  ∀ (s : State) (a : CmdOperands), Ready s →
    (a.dev > 31 ∨ a.reg > 31 → exec (.rdreg a) s = .next (rejected s)) ∧
    (a.dev ≤ 31 → a.reg ≤ 31 → NoReset (readFrameLen s.cfg) s →
      let d := BitVec.ofNat 5 a.dev
      let r := BitVec.ofNat 5 a.reg
      issue (.rdreg a) (readFrameLen s.cfg) s = .next (ended s 0 a
        { events := readFrameEvents s.cfg d r (s.env.levels 16), steps := readFrameLen s.cfg, value := s.env.word 0,
          code := .ok, m1 := false, polls := 0, shr := s.env.word 0, env := s.env.skip 16, lastBit := r.getLsbD 0 }))

/-- `WRREG d, r, v` (41_direct_access.md R101): rejected with a bad operand; else accepted, then exactly one write frame,
and `RESULT` is 0, `STATUS` `OK`; nothing is sampled, so it cannot fail once accepted. -/
def Obligations.WrregWritesOneRegister : Prop :=
  ∀ (s : State) (a : CmdOperands), Ready s →
    (a.dev > 31 ∨ a.reg > 31 ∨ a.val > 0xFFFF → exec (.wrreg a) s = .next (rejected s)) ∧
    (a.dev ≤ 31 → a.reg ≤ 31 → a.val ≤ 0xFFFF → NoReset (writeFrameLen s.cfg) s →
      let d := BitVec.ofNat 5 a.dev
      let r := BitVec.ofNat 5 a.reg
      let v := BitVec.ofNat 16 a.val
      issue (.wrreg a) (writeFrameLen s.cfg) s = .next (ended s 1 a
        { events := writeFrameEvents s.cfg d r v, steps := writeFrameLen s.cfg, value := 0, code := .ok, m1 := false,
          polls := 0, shr := s.shr, env := s.env, lastBit := v.getLsbD 0 }))

/-- `RDEXP d, x` (42_expansion_access.md R111): rejected with a bad operand; else select, read of the data register,
deselect with 0x0000, back to back, and `RESULT` is the value sampled. The deselect is sent whatever was read (R112). -/
def Obligations.RdexpSelectsReadsDeselects : Prop :=
  ∀ (s : State) (a : CmdOperands), Ready s →
    (a.dev > 31 ∨ a.reg > 0xFFFF → exec (.rdexp a) s = .next (rejected s)) ∧
    (a.dev ≤ 31 → a.reg ≤ 0xFFFF →
      NoReset (writeFrameLen s.cfg + readFrameLen s.cfg + writeFrameLen s.cfg) s →
      let d := BitVec.ofNat 5 a.dev
      issue (.rdexp a) (writeFrameLen s.cfg + readFrameLen s.cfg + writeFrameLen s.cfg) s = .next (ended s 2 a
        { events := writeFrameEvents s.cfg d s.cfg.selReg (BitVec.ofNat 16 a.reg ||| s.cfg.pageSelBits)
            ++ readFrameEvents s.cfg d s.cfg.dataReg (s.env.levels 16) ++ writeFrameEvents s.cfg d s.cfg.selReg 0,
          steps := writeFrameLen s.cfg + readFrameLen s.cfg + writeFrameLen s.cfg, value := s.env.word 0, code := .ok,
          m1 := false, polls := 0, shr := s.env.word 0, env := s.env.skip 16, lastBit := false }))

/-- `WREXP d, x, v` (42_expansion_access.md R110): rejected with a bad operand, before any frame; else select, write of
the data register, deselect with 0x0000, back to back, and `RESULT` is 0. -/
def Obligations.WrexpSelectsWritesDeselects : Prop :=
  ∀ (s : State) (a : CmdOperands), Ready s →
    (a.dev > 31 ∨ a.reg > 0xFFFF ∨ a.val > 0xFFFF → exec (.wrexp a) s = .next (rejected s)) ∧
    (a.dev ≤ 31 → a.reg ≤ 0xFFFF → a.val ≤ 0xFFFF → NoReset (3 * writeFrameLen s.cfg) s →
      let d := BitVec.ofNat 5 a.dev
      issue (.wrexp a) (3 * writeFrameLen s.cfg) s = .next (ended s 3 a
        { events := writeFrameEvents s.cfg d s.cfg.selReg (BitVec.ofNat 16 a.reg ||| s.cfg.pageSelBits)
            ++ writeFrameEvents s.cfg d s.cfg.dataReg (BitVec.ofNat 16 a.val)
            ++ writeFrameEvents s.cfg d s.cfg.selReg 0,
          steps := 3 * writeFrameLen s.cfg, value := 0, code := .ok, m1 := false, polls := 0, shr := s.shr,
          env := s.env, lastBit := false }))

/-- `CHKDEV d, hi, lo` (43_device_ops.md R120): rejected with a bad operand; else, when the first identity register does
not match and `ID_SHORT_CIRCUIT` is set, one read frame and `RESULT` 0; otherwise two read frames, and `RESULT` 1 exactly
when both match. `M1` is the first comparison. -/
def Obligations.ChkdevComparesBothIdentityRegisters : Prop :=
  ∀ (s : State) (a : CmdOperands), Ready s →
    let d := BitVec.ofNat 5 a.dev
    let match1 := s.env.word 0 = BitVec.ofNat 16 a.val
    let match2 := s.env.word 1 = BitVec.ofNat 16 a.val2
    let first := readFrameEvents s.cfg d s.cfg.idHiReg (s.env.levels 16)
    let second := readFrameEvents s.cfg d s.cfg.idLoReg ((s.env.skip 16).levels 16)
    let afterTwo (value : Word16) (m1 : Bool) : Result := .next (ended s 4 a
      { events := first ++ second, steps := 2 * readFrameLen s.cfg, value := value, code := .ok, m1 := m1, polls := 0,
        shr := s.env.word 1, env := s.env.afterReads 2, lastBit := s.cfg.idLoReg.getLsbD 0 })
    (a.dev > 31 ∨ a.val > 0xFFFF ∨ a.val2 > 0xFFFF → exec (.chkdev a) s = .next (rejected s)) ∧
    (a.dev ≤ 31 → a.val ≤ 0xFFFF → a.val2 ≤ 0xFFFF →
      (¬ match1 → s.cfg.idShortCircuit = true → NoReset (readFrameLen s.cfg) s →
        issue (.chkdev a) (readFrameLen s.cfg) s = .next (ended s 4 a
          { events := first, steps := readFrameLen s.cfg, value := 0, code := .ok, m1 := false, polls := 0,
            shr := s.env.word 0, env := s.env.afterReads 1, lastBit := s.cfg.idHiReg.getLsbD 0 })) ∧
      (¬ match1 → s.cfg.idShortCircuit = false → NoReset (2 * readFrameLen s.cfg) s →
        issue (.chkdev a) (2 * readFrameLen s.cfg) s = afterTwo 0 false) ∧
      (match1 → ¬ match2 → NoReset (2 * readFrameLen s.cfg) s →
        issue (.chkdev a) (2 * readFrameLen s.cfg) s = afterTwo 0 true) ∧
      (match1 → match2 → NoReset (2 * readFrameLen s.cfg) s →
        issue (.chkdev a) (2 * readFrameLen s.cfg) s = afterTwo 1 true))

/-- `LINK d` (43_device_ops.md R122): rejected with a bad operand; else one read frame, and up, if the first value has the
link bit; otherwise exactly two, and the second value's bit is the answer. `RESULT` is 1 or 0. -/
def Obligations.LinkReadsTwiceWhenDown : Prop :=
  ∀ (s : State) (a : CmdOperands), Ready s →
    let d := BitVec.ofNat 5 a.dev
    let first := readFrameEvents s.cfg d s.cfg.statusReg (s.env.levels 16)
    let second := readFrameEvents s.cfg d s.cfg.statusReg ((s.env.skip 16).levels 16)
    let afterTwo (value : Word16) : Result := .next (ended s 6 a
      { events := first ++ second, steps := 2 * readFrameLen s.cfg, value := value, code := .ok, m1 := false,
        polls := 0, shr := s.env.word 1, env := s.env.afterReads 2, lastBit := s.cfg.statusReg.getLsbD 0 })
    (a.dev > 31 → exec (.link a) s = .next (rejected s)) ∧
    (a.dev ≤ 31 →
      (s.env.word 0 &&& s.cfg.linkMask ≠ 0 → NoReset (readFrameLen s.cfg) s →
        issue (.link a) (readFrameLen s.cfg) s = .next (ended s 6 a
          { events := first, steps := readFrameLen s.cfg, value := 1, code := .ok, m1 := false, polls := 0,
            shr := s.env.word 0, env := s.env.afterReads 1, lastBit := s.cfg.statusReg.getLsbD 0 })) ∧
      (s.env.word 0 &&& s.cfg.linkMask = 0 → s.env.word 1 &&& s.cfg.linkMask ≠ 0 →
        NoReset (2 * readFrameLen s.cfg) s → issue (.link a) (2 * readFrameLen s.cfg) s = afterTwo 1) ∧
      (s.env.word 0 &&& s.cfg.linkMask = 0 → s.env.word 1 &&& s.cfg.linkMask = 0 →
        NoReset (2 * readFrameLen s.cfg) s → issue (.link a) (2 * readFrameLen s.cfg) s = afterTwo 0))

/-- `RSTDEV d` (43_device_ops.md R121): rejected with a bad operand; else the write of exactly `RESET_MASK`, then poll
reads. After `k` polls that all showed the reset bit set, `k` below a finite limit, the engine is at the start of the
next poll with `POLLS = k`; one read frame later: if that poll shows the bit clear, the command has completed with `OK`,
also when that poll is the last one the limit allows; else if the limit is `k + 1`, it has ended with `TIMEOUT`; else
the same read frame starts again with `POLLS = k + 1`. -/
def Obligations.RstdevPollLoop : Prop :=
  ∀ (s : State) (a : CmdOperands), Ready s →
    (a.dev > 31 → exec (.rstdev a) s = .next (rejected s)) ∧
    (∀ k : Nat, a.dev ≤ 31 → (∀ j < k, s.env.word j &&& s.cfg.resetMask ≠ 0) →
      (∀ limit, s.cfg.resetPollLimit = some limit → k < limit) →
      NoReset (writeFrameLen s.cfg + (k + 1) * readFrameLen s.cfg) s →
      issue (.rstdev a) (writeFrameLen s.cfg + k * readFrameLen s.cfg) s = .next (polling s a k) ∧
      (s.env.word k &&& s.cfg.resetMask = 0 →
        run (readFrameLen s.cfg) (polling s a k) = .next (ended s 5 a (pollEnding s a k .ok))) ∧
      (s.env.word k &&& s.cfg.resetMask ≠ 0 → s.cfg.resetPollLimit = some (k + 1) →
        run (readFrameLen s.cfg) (polling s a k) = .next (ended s 5 a (pollEnding s a k .timeout))) ∧
      (s.env.word k &&& s.cfg.resetMask ≠ 0 → s.cfg.resetPollLimit ≠ some (k + 1) →
        run (readFrameLen s.cfg) (polling s a k) = .next (polling s a (k + 1))))

/-- `Timeout` (60_exceptions.md R141): with a finite limit, and the reset bit set in every one of that many poll reads,
`RSTDEV` ends with `STATUS` 2 and `RESULT` 0 after the reset write and exactly that many reads, the lines idle. Without a
limit no step produces code 2. -/
def Obligations.RstdevTimesOutAtTheLimit : Prop :=
  (∀ (s : State) (a : CmdOperands) (k : Nat), Ready s → a.dev ≤ 31 → s.cfg.resetPollLimit = some (k + 1) →
    (∀ j < k + 1, s.env.word j &&& s.cfg.resetMask ≠ 0) →
    NoReset (writeFrameLen s.cfg + (k + 1) * readFrameLen s.cfg) s →
    ∃ u, issue (.rstdev a) (writeFrameLen s.cfg + (k + 1) * readFrameLen s.cfg) s = .next u ∧
      u = ended s 5 a (pollEnding s a k .timeout) ∧ responsePort u = ⟨true, true, 2, 0⟩ ∧ Ready u) ∧
  (∀ (s : State) (limit : Nat), s.cfg.resetPollLimit = some limit → 1 ≤ limit) ∧
  (∀ (s t : State), s.cfg.resetPollLimit = none → step s = .next t → s.status ≠ .timeout → t.status ≠ .timeout)

/-- The hang (60_exceptions.md R145): without a limit, and every poll read showing the reset bit set, the engine always
has a next step and `RSTDEV` never ends: `BUSY` stays 1 and `DONE` 0 at every later step. Hardware reset ends it, at any
of them. -/
def Obligations.RstdevHangsWithoutALimit : Prop :=
  ∀ (s : State) (a : CmdOperands), Ready s → a.dev ≤ 31 → s.cfg.resetPollLimit = none →
    (∀ j, s.env.word j &&& s.cfg.resetMask ≠ 0) → (∀ p ∈ s.hostIn, p.rst = false) →
    ∃ t, exec (.rstdev a) s = .next t ∧
      ∀ n, ∃ u, run n t = .next u ∧ u.busy = true ∧ u.done = false ∧ u.aOp = 5 ∧
        ∀ (p : HostPins) (rest : List HostPins), p.rst = true →
          ∃ v, step { u with hostIn := p :: rest } = .next v ∧ v.busy = false ∧ v.polls = 0 ∧ v.seq = Seq.idle ∧ LinesIdle v

/-- The two trace identities of 30_encoding.md R71: `WREXP d, x, v` and `RDEXP d, x` make the line trace of the three
direct commands, and `RDEXP` the result of the middle one. -/
def Obligations.ExpansionTraceIdentities : Prop :=
  ∀ (s : State) (d x v : Nat), Ready s → d ≤ 31 → x ≤ 0xFFFF → v ≤ 0xFFFF →
    NoReset (3 * writeFrameLen s.cfg + readFrameLen s.cfg) s →
    let w := writeFrameLen s.cfg
    let r := readFrameLen s.cfg
    let select : Instr := .wrreg ⟨d, s.cfg.selReg.toNat, (BitVec.ofNat 16 x ||| s.cfg.pageSelBits).toNat, 0⟩
    let deselect : Instr := .wrreg ⟨d, s.cfg.selReg.toNat, 0, 0⟩
    (∃ u a b e, issue (.wrexp ⟨d, x, v, 0⟩) (3 * w) s = .next u ∧ issue select w s = .next a ∧
      issue (.wrreg ⟨d, s.cfg.dataReg.toNat, v, 0⟩) w a = .next b ∧ issue deselect w b = .next e ∧
      u.trace = e.trace) ∧
    (∃ u a b e, issue (.rdexp ⟨d, x, 0, 0⟩) (w + r + w) s = .next u ∧ issue select w s = .next a ∧
      issue (.rdreg ⟨d, s.cfg.dataReg.toNat, 0, 0⟩) r a = .next b ∧ issue deselect w b = .next e ∧
      u.trace = e.trace ∧ u.result = b.result)

/-- The round trip (41_direct_access.md R102): `WRREG d, r, v` then `RDREG d, r` returns `v`, if the environment answers
each sample of the read with the level the data line had `N = PREAMBLE_LEN + 30 + TA_RD_CLOCKS` clock pulses earlier. -/
def Obligations.LoopbackRoundTrip : Prop :=
  ∀ (s : State) (d r v : Nat), Ready s → d ≤ 31 → r ≤ 31 → v ≤ 0xFFFF →
    NoReset (writeFrameLen s.cfg + readFrameLen s.cfg) s →
    ∃ a b, issue (.wrreg ⟨d, r, v, 0⟩) (writeFrameLen s.cfg) s = .next a ∧
      issue (.rdreg ⟨d, r, 0, 0⟩) (readFrameLen s.cfg) a = .next b ∧
      let levels := risingLevels false true (a.trace.drop s.trace.length)
      let latency := s.cfg.preambleLen + 30 + s.cfg.taRdClocks
      ((∀ i < 16, levels[levels.length + s.cfg.preambleLen + 14 + s.cfg.taRdClocks + i - latency]?
          = (a.env.levels 16)[i]?.map some) →
        b.result = BitVec.ofNat 16 v ∧ b.status = .ok)

/-! ### Whole-machine rules -/

/-- The invariant holds after reset (10_state.md R33, 70_reset_and_hazards.md R161). -/
def Obligations.ResetMeetsTheInvariant : Prop := Inv State.reset ∧ TraceLegal State.reset

/-- Every step keeps the invariant, from every state that meets it (10_state.md R33): `MDC_OE = 1`; idle means idle lines;
busy means `DONE = 0`; the clock's pulses never overlap; `POLLS` stays within a finite limit (30_encoding.md R72). -/
def Obligations.StepKeepsTheInvariant : Prop :=
  ∀ (s t : State), Inv s → step s = .next t → Inv t

/-- The block never stops: from every state that meets the invariant, with port values the host's ports can carry, a
step answers a next state. In particular no sampled bit can stop it (20_memory.md R46, 60_exceptions.md R145). -/
def Obligations.BlockNeverStops : Prop :=
  ∀ (s : State), Inv s → (hostPins s).cmd.args.fits s.cfg.argw = true → ∃ t, step s = .next t

/-- Every step keeps the line trace legal (10_state.md R21, R22, R33): no `DIR(MDC, ·)` and no `RD(MDC)` is ever emitted,
no `WR(MDIO, ·)` while the data line is released, no `RD(MDIO)` while it is driven; the pin registers are what the
events left. -/
def Obligations.StepKeepsTheTraceLegal : Prop :=
  ∀ (s t : State), Inv s → TraceLegal s → step s = .next t → TraceLegal t

/-- One line event per busy step, none in an idle one (10_state.md R15, R24): with `rst = 0`, a step of a busy block adds
exactly one event to the trace, and a step of an idle block, an accept included, none; and the events already there
stay (20_memory.md R50). -/
def Obligations.OneLineEventPerBusyStep : Prop :=
  ∀ (s t : State), (hostPins s).rst = false → step s = .next t →
    (s.busy = true → ∃ e, t.trace = s.trace ++ [e]) ∧ (s.busy = false → t.trace = s.trace)

/-- The configuration "is fixed when the block is built" (10_state.md R26): no step changes it. -/
def Obligations.StepKeepsTheConfiguration : Prop := ∀ (s t : State), step s = .next t → t.cfg = s.cfg

/-- `RESULT`, `STATUS` and `DONE` hold between completions (10_state.md R13, R25): with `rst = 0`, a step changes one of
them only where it completes a command or accepts one; the latches change only in the accept of a command
(10_state.md R11). -/
def Obligations.ResponseHoldsBetweenCompletions : Prop :=
  ∀ (s t : State), (hostPins s).rst = false → step s = .next t →
    (t.busy = s.busy → s.busy = true ∨ (hostPins s).cmdValid = false →
      t.result = s.result ∧ t.status = s.status ∧ t.done = s.done) ∧
    (s.busy = true ∨ t.busy = false →
      t.aOp = s.aOp ∧ t.aDev = s.aDev ∧ t.aReg = s.aReg ∧ t.aVal = s.aVal ∧ t.aVal2 = s.aVal2)

/-- Whether the engine has a step, and the lines it drives in it, do not depend on what the environment answers
(20_memory.md R46). -/
def Obligations.SamplesNeverStopTheEngine : Prop :=
  ∀ (s t : State) (e : Env), step s = .next t →
    ∃ u, step { s with env := e } = .next u ∧ linePort u = linePort t ∧ u.trace.length = t.trace.length

/-- A port a command does not use affects no line event and no result (30_encoding.md R66). First, two operand tuples that
agree on the used ports are accepted into states that agree but for latches the command never reads, or are both
rejected; second, steps keep that agreement, so every line event, `RESULT`, `STATUS`, `DONE` and `BUSY` agree ever
after. -/
def Obligations.IgnoredPortsHaveNoEffect : Prop :=
  (∀ (s : State) (a b : CmdOperands), a.dev = b.dev →
    (∀ op t, exec (commandOf op a) s = .next t →
      (op = 0 → a.reg = b.reg → ∃ u, exec (.rdreg b) s = .next u ∧ maskIgnored u = maskIgnored t) ∧
      (op = 1 → a.reg = b.reg → a.val = b.val → ∃ u, exec (.wrreg b) s = .next u ∧ maskIgnored u = maskIgnored t) ∧
      (op = 2 → a.reg = b.reg → ∃ u, exec (.rdexp b) s = .next u ∧ maskIgnored u = maskIgnored t) ∧
      (op = 3 → a.reg = b.reg → a.val = b.val → ∃ u, exec (.wrexp b) s = .next u ∧ maskIgnored u = maskIgnored t) ∧
      (op = 4 → a.val = b.val → a.val2 = b.val2 →
        ∃ u, exec (.chkdev b) s = .next u ∧ maskIgnored u = maskIgnored t) ∧
      (op = 5 → ∃ u, exec (.rstdev b) s = .next u ∧ maskIgnored u = maskIgnored t) ∧
      (op = 6 → ∃ u, exec (.link b) s = .next u ∧ maskIgnored u = maskIgnored t))) ∧
  (∀ (s s' t : State), maskIgnored s = maskIgnored s' → step s = .next t →
    ∃ t', step s' = .next t' ∧ maskIgnored t = maskIgnored t')
end

