-- ==== Sys2Proof/Laws/Encoding.lean ====
section
/-! SUPPORT. The bits of a frame word, one by one, and its fields (30_encoding.md R60, R62, R63). -/

namespace Sys2Proof

/-- Bit `i` of the 14 bits of a read frame that the master drives (30_encoding.md R63). -/
theorem getLsbD_hRead (d r : Addr5) (i : Nat) :
    (hRead d r).getLsbD i =
      if i < 5 then r.getLsbD i else if i < 10 then d.getLsbD (i - 5) else (6#4).getLsbD (i - 10) := by
  have e : hRead d r = (6#4 ++ d ++ r : BitVec (4 + 5 + 5)) := rfl
  rw [e]
  simp only [BitVec.getLsbD_append, Nat.sub_sub]
  split
  · rfl
  · simp only [show (i - 5 < 5) = (i < 10) by simp; omega]

/-- Bit `i` of a write frame (30_encoding.md R62). -/
theorem getLsbD_fwWrite (t : BitVec 2) (d r : Addr5) (v : Word16) (i : Nat) :
    (fwWrite t d r v).getLsbD i =
      if i < 16 then v.getLsbD i else if i < 18 then t.getLsbD (i - 16) else if i < 23 then r.getLsbD (i - 18)
      else if i < 28 then d.getLsbD (i - 23) else (5#4).getLsbD (i - 28) := by
  have e : fwWrite t d r v = (5#4 ++ d ++ r ++ t ++ v : BitVec (4 + 5 + 5 + 2 + 16)) := rfl
  rw [e]
  simp only [BitVec.getLsbD_append, Nat.sub_sub]
  split
  · rfl
  · simp only [show (i - 16 < 2) = (i < 18) by simp; omega, show (i - 18 < 5) = (i < 23) by simp; omega,
      show (i - 23 < 5) = (i < 28) by simp; omega]

/-- Bit `i` of a read frame as encoded: the master's 14 bits above 18 zeros. -/
theorem getLsbD_readWord (d r : Addr5) (i : Nat) :
    (hRead d r ++ 0#18 : BitVec 32).getLsbD i = if i < 18 then false else (hRead d r).getLsbD (i - 18) := by
  have e : (hRead d r ++ 0#18 : BitVec 32) = (hRead d r ++ 0#18 : BitVec (14 + 18)) := rfl
  rw [e, BitVec.getLsbD_append]
  simp

/-- The command map is the inverse of the numbering of the rows (30_encoding.md R66). -/
theorem commandOf_encode (a : CmdOperands) :
    commandOf 0 a = .rdreg a ∧ commandOf 1 a = .wrreg a ∧ commandOf 2 a = .rdexp a ∧ commandOf 3 a = .wrexp a ∧
    commandOf 4 a = .chkdev a ∧ commandOf 5 a = .rstdev a ∧ commandOf 6 a = .link a ∧ commandOf 7 a = .reserved a :=
  ⟨rfl, rfl, rfl, rfl, rfl, rfl, rfl, rfl⟩

end Sys2Proof
end

