-- ==== Sys2Proof/Laws/State.lean ====
section
/-! SUPPORT. One lemma per field per update of State, each true by definition, so that no proof unfolds a record update. -/

namespace Sys2Proof.Machine

@[simp] theorem dirOutput_cfg (s : State) : (dirOutput s).cfg = s.cfg := rfl
@[simp] theorem dirOutput_aOp (s : State) : (dirOutput s).aOp = s.aOp := rfl
@[simp] theorem dirOutput_aDev (s : State) : (dirOutput s).aDev = s.aDev := rfl
@[simp] theorem dirOutput_aReg (s : State) : (dirOutput s).aReg = s.aReg := rfl
@[simp] theorem dirOutput_aVal (s : State) : (dirOutput s).aVal = s.aVal := rfl
@[simp] theorem dirOutput_aVal2 (s : State) : (dirOutput s).aVal2 = s.aVal2 := rfl
@[simp] theorem dirOutput_shr (s : State) : (dirOutput s).shr = s.shr := rfl
@[simp] theorem dirOutput_result (s : State) : (dirOutput s).result = s.result := rfl
@[simp] theorem dirOutput_status (s : State) : (dirOutput s).status = s.status := rfl
@[simp] theorem dirOutput_done (s : State) : (dirOutput s).done = s.done := rfl
@[simp] theorem dirOutput_busy (s : State) : (dirOutput s).busy = s.busy := rfl
@[simp] theorem dirOutput_m1 (s : State) : (dirOutput s).m1 = s.m1 := rfl
@[simp] theorem dirOutput_polls (s : State) : (dirOutput s).polls = s.polls := rfl
@[simp] theorem dirOutput_seq (s : State) : (dirOutput s).seq = s.seq := rfl
@[simp] theorem dirOutput_mdcOe (s : State) : (dirOutput s).mdcOe = s.mdcOe := rfl
@[simp] theorem dirOutput_mdcO (s : State) : (dirOutput s).mdcO = s.mdcO := rfl
@[simp] theorem dirOutput_mdioOe (s : State) : (dirOutput s).mdioOe = true := rfl
@[simp] theorem dirOutput_mdioO (s : State) : (dirOutput s).mdioO = s.mdioO := rfl
@[simp] theorem dirOutput_trace (s : State) : (dirOutput s).trace = s.trace ++ [.dir .mdio .output] := rfl
@[simp] theorem dirOutput_hostIn (s : State) : (dirOutput s).hostIn = s.hostIn := rfl
@[simp] theorem dirOutput_env (s : State) : (dirOutput s).env = s.env := rfl

@[simp] theorem dirInput_cfg (s : State) : (dirInput s).cfg = s.cfg := rfl
@[simp] theorem dirInput_aOp (s : State) : (dirInput s).aOp = s.aOp := rfl
@[simp] theorem dirInput_aDev (s : State) : (dirInput s).aDev = s.aDev := rfl
@[simp] theorem dirInput_aReg (s : State) : (dirInput s).aReg = s.aReg := rfl
@[simp] theorem dirInput_aVal (s : State) : (dirInput s).aVal = s.aVal := rfl
@[simp] theorem dirInput_aVal2 (s : State) : (dirInput s).aVal2 = s.aVal2 := rfl
@[simp] theorem dirInput_shr (s : State) : (dirInput s).shr = s.shr := rfl
@[simp] theorem dirInput_result (s : State) : (dirInput s).result = s.result := rfl
@[simp] theorem dirInput_status (s : State) : (dirInput s).status = s.status := rfl
@[simp] theorem dirInput_done (s : State) : (dirInput s).done = s.done := rfl
@[simp] theorem dirInput_busy (s : State) : (dirInput s).busy = s.busy := rfl
@[simp] theorem dirInput_m1 (s : State) : (dirInput s).m1 = s.m1 := rfl
@[simp] theorem dirInput_polls (s : State) : (dirInput s).polls = s.polls := rfl
@[simp] theorem dirInput_seq (s : State) : (dirInput s).seq = s.seq := rfl
@[simp] theorem dirInput_mdcOe (s : State) : (dirInput s).mdcOe = s.mdcOe := rfl
@[simp] theorem dirInput_mdcO (s : State) : (dirInput s).mdcO = s.mdcO := rfl
@[simp] theorem dirInput_mdioOe (s : State) : (dirInput s).mdioOe = false := rfl
@[simp] theorem dirInput_mdioO (s : State) : (dirInput s).mdioO = s.mdioO := rfl
@[simp] theorem dirInput_trace (s : State) : (dirInput s).trace = s.trace ++ [.dir .mdio .input] := rfl
@[simp] theorem dirInput_hostIn (s : State) : (dirInput s).hostIn = s.hostIn := rfl
@[simp] theorem dirInput_env (s : State) : (dirInput s).env = s.env := rfl

@[simp] theorem wrMdio_cfg (b : Level) (s : State) : (wrMdio b s).cfg = s.cfg := rfl
@[simp] theorem wrMdio_aOp (b : Level) (s : State) : (wrMdio b s).aOp = s.aOp := rfl
@[simp] theorem wrMdio_aDev (b : Level) (s : State) : (wrMdio b s).aDev = s.aDev := rfl
@[simp] theorem wrMdio_aReg (b : Level) (s : State) : (wrMdio b s).aReg = s.aReg := rfl
@[simp] theorem wrMdio_aVal (b : Level) (s : State) : (wrMdio b s).aVal = s.aVal := rfl
@[simp] theorem wrMdio_aVal2 (b : Level) (s : State) : (wrMdio b s).aVal2 = s.aVal2 := rfl
@[simp] theorem wrMdio_shr (b : Level) (s : State) : (wrMdio b s).shr = s.shr := rfl
@[simp] theorem wrMdio_result (b : Level) (s : State) : (wrMdio b s).result = s.result := rfl
@[simp] theorem wrMdio_status (b : Level) (s : State) : (wrMdio b s).status = s.status := rfl
@[simp] theorem wrMdio_done (b : Level) (s : State) : (wrMdio b s).done = s.done := rfl
@[simp] theorem wrMdio_busy (b : Level) (s : State) : (wrMdio b s).busy = s.busy := rfl
@[simp] theorem wrMdio_m1 (b : Level) (s : State) : (wrMdio b s).m1 = s.m1 := rfl
@[simp] theorem wrMdio_polls (b : Level) (s : State) : (wrMdio b s).polls = s.polls := rfl
@[simp] theorem wrMdio_seq (b : Level) (s : State) : (wrMdio b s).seq = s.seq := rfl
@[simp] theorem wrMdio_mdcOe (b : Level) (s : State) : (wrMdio b s).mdcOe = s.mdcOe := rfl
@[simp] theorem wrMdio_mdcO (b : Level) (s : State) : (wrMdio b s).mdcO = s.mdcO := rfl
@[simp] theorem wrMdio_mdioOe (b : Level) (s : State) : (wrMdio b s).mdioOe = s.mdioOe := rfl
@[simp] theorem wrMdio_mdioO (b : Level) (s : State) : (wrMdio b s).mdioO = b := rfl
@[simp] theorem wrMdio_trace (b : Level) (s : State) : (wrMdio b s).trace = s.trace ++ [.wr .mdio b] := rfl
@[simp] theorem wrMdio_hostIn (b : Level) (s : State) : (wrMdio b s).hostIn = s.hostIn := rfl
@[simp] theorem wrMdio_env (b : Level) (s : State) : (wrMdio b s).env = s.env := rfl

@[simp] theorem wrMdc_cfg (b : Level) (s : State) : (wrMdc b s).cfg = s.cfg := rfl
@[simp] theorem wrMdc_aOp (b : Level) (s : State) : (wrMdc b s).aOp = s.aOp := rfl
@[simp] theorem wrMdc_aDev (b : Level) (s : State) : (wrMdc b s).aDev = s.aDev := rfl
@[simp] theorem wrMdc_aReg (b : Level) (s : State) : (wrMdc b s).aReg = s.aReg := rfl
@[simp] theorem wrMdc_aVal (b : Level) (s : State) : (wrMdc b s).aVal = s.aVal := rfl
@[simp] theorem wrMdc_aVal2 (b : Level) (s : State) : (wrMdc b s).aVal2 = s.aVal2 := rfl
@[simp] theorem wrMdc_shr (b : Level) (s : State) : (wrMdc b s).shr = s.shr := rfl
@[simp] theorem wrMdc_result (b : Level) (s : State) : (wrMdc b s).result = s.result := rfl
@[simp] theorem wrMdc_status (b : Level) (s : State) : (wrMdc b s).status = s.status := rfl
@[simp] theorem wrMdc_done (b : Level) (s : State) : (wrMdc b s).done = s.done := rfl
@[simp] theorem wrMdc_busy (b : Level) (s : State) : (wrMdc b s).busy = s.busy := rfl
@[simp] theorem wrMdc_m1 (b : Level) (s : State) : (wrMdc b s).m1 = s.m1 := rfl
@[simp] theorem wrMdc_polls (b : Level) (s : State) : (wrMdc b s).polls = s.polls := rfl
@[simp] theorem wrMdc_seq (b : Level) (s : State) : (wrMdc b s).seq = s.seq := rfl
@[simp] theorem wrMdc_mdcOe (b : Level) (s : State) : (wrMdc b s).mdcOe = s.mdcOe := rfl
@[simp] theorem wrMdc_mdcO (b : Level) (s : State) : (wrMdc b s).mdcO = b := rfl
@[simp] theorem wrMdc_mdioOe (b : Level) (s : State) : (wrMdc b s).mdioOe = s.mdioOe := rfl
@[simp] theorem wrMdc_mdioO (b : Level) (s : State) : (wrMdc b s).mdioO = s.mdioO := rfl
@[simp] theorem wrMdc_trace (b : Level) (s : State) : (wrMdc b s).trace = s.trace ++ [.wr .mdc b] := rfl
@[simp] theorem wrMdc_hostIn (b : Level) (s : State) : (wrMdc b s).hostIn = s.hostIn := rfl
@[simp] theorem wrMdc_env (b : Level) (s : State) : (wrMdc b s).env = s.env := rfl

@[simp] theorem rdMdio_cfg (s : State) : ((rdMdio s).2).cfg = s.cfg := rfl
@[simp] theorem rdMdio_aOp (s : State) : ((rdMdio s).2).aOp = s.aOp := rfl
@[simp] theorem rdMdio_aDev (s : State) : ((rdMdio s).2).aDev = s.aDev := rfl
@[simp] theorem rdMdio_aReg (s : State) : ((rdMdio s).2).aReg = s.aReg := rfl
@[simp] theorem rdMdio_aVal (s : State) : ((rdMdio s).2).aVal = s.aVal := rfl
@[simp] theorem rdMdio_aVal2 (s : State) : ((rdMdio s).2).aVal2 = s.aVal2 := rfl
@[simp] theorem rdMdio_shr (s : State) : ((rdMdio s).2).shr = s.shr := rfl
@[simp] theorem rdMdio_result (s : State) : ((rdMdio s).2).result = s.result := rfl
@[simp] theorem rdMdio_status (s : State) : ((rdMdio s).2).status = s.status := rfl
@[simp] theorem rdMdio_done (s : State) : ((rdMdio s).2).done = s.done := rfl
@[simp] theorem rdMdio_busy (s : State) : ((rdMdio s).2).busy = s.busy := rfl
@[simp] theorem rdMdio_m1 (s : State) : ((rdMdio s).2).m1 = s.m1 := rfl
@[simp] theorem rdMdio_polls (s : State) : ((rdMdio s).2).polls = s.polls := rfl
@[simp] theorem rdMdio_seq (s : State) : ((rdMdio s).2).seq = s.seq := rfl
@[simp] theorem rdMdio_mdcOe (s : State) : ((rdMdio s).2).mdcOe = s.mdcOe := rfl
@[simp] theorem rdMdio_mdcO (s : State) : ((rdMdio s).2).mdcO = s.mdcO := rfl
@[simp] theorem rdMdio_mdioOe (s : State) : ((rdMdio s).2).mdioOe = s.mdioOe := rfl
@[simp] theorem rdMdio_mdioO (s : State) : ((rdMdio s).2).mdioO = s.mdioO := rfl
@[simp] theorem rdMdio_trace (s : State) : ((rdMdio s).2).trace = s.trace ++ [.rd .mdio s.env.next.1] := rfl
@[simp] theorem rdMdio_hostIn (s : State) : ((rdMdio s).2).hostIn = s.hostIn := rfl
@[simp] theorem rdMdio_env (s : State) : ((rdMdio s).2).env = s.env.next.2 := rfl

@[simp] theorem enter_cfg (ph : Phase) (cnt : Nat) (sub : Sub) (s : State) : (enter ph cnt sub s).cfg = s.cfg := rfl
@[simp] theorem enter_aOp (ph : Phase) (cnt : Nat) (sub : Sub) (s : State) : (enter ph cnt sub s).aOp = s.aOp := rfl
@[simp] theorem enter_aDev (ph : Phase) (cnt : Nat) (sub : Sub) (s : State) : (enter ph cnt sub s).aDev = s.aDev := rfl
@[simp] theorem enter_aReg (ph : Phase) (cnt : Nat) (sub : Sub) (s : State) : (enter ph cnt sub s).aReg = s.aReg := rfl
@[simp] theorem enter_aVal (ph : Phase) (cnt : Nat) (sub : Sub) (s : State) : (enter ph cnt sub s).aVal = s.aVal := rfl
@[simp] theorem enter_aVal2 (ph : Phase) (cnt : Nat) (sub : Sub) (s : State) : (enter ph cnt sub s).aVal2 = s.aVal2 := rfl
@[simp] theorem enter_shr (ph : Phase) (cnt : Nat) (sub : Sub) (s : State) : (enter ph cnt sub s).shr = s.shr := rfl
@[simp] theorem enter_result (ph : Phase) (cnt : Nat) (sub : Sub) (s : State) : (enter ph cnt sub s).result = s.result := rfl
@[simp] theorem enter_status (ph : Phase) (cnt : Nat) (sub : Sub) (s : State) : (enter ph cnt sub s).status = s.status := rfl
@[simp] theorem enter_done (ph : Phase) (cnt : Nat) (sub : Sub) (s : State) : (enter ph cnt sub s).done = s.done := rfl
@[simp] theorem enter_busy (ph : Phase) (cnt : Nat) (sub : Sub) (s : State) : (enter ph cnt sub s).busy = s.busy := rfl
@[simp] theorem enter_m1 (ph : Phase) (cnt : Nat) (sub : Sub) (s : State) : (enter ph cnt sub s).m1 = s.m1 := rfl
@[simp] theorem enter_polls (ph : Phase) (cnt : Nat) (sub : Sub) (s : State) : (enter ph cnt sub s).polls = s.polls := rfl
@[simp] theorem enter_seq (ph : Phase) (cnt : Nat) (sub : Sub) (s : State) : (enter ph cnt sub s).seq = ⟨s.seq.xact, ph, cnt, sub⟩ := rfl
@[simp] theorem enter_mdcOe (ph : Phase) (cnt : Nat) (sub : Sub) (s : State) : (enter ph cnt sub s).mdcOe = s.mdcOe := rfl
@[simp] theorem enter_mdcO (ph : Phase) (cnt : Nat) (sub : Sub) (s : State) : (enter ph cnt sub s).mdcO = s.mdcO := rfl
@[simp] theorem enter_mdioOe (ph : Phase) (cnt : Nat) (sub : Sub) (s : State) : (enter ph cnt sub s).mdioOe = s.mdioOe := rfl
@[simp] theorem enter_mdioO (ph : Phase) (cnt : Nat) (sub : Sub) (s : State) : (enter ph cnt sub s).mdioO = s.mdioO := rfl
@[simp] theorem enter_trace (ph : Phase) (cnt : Nat) (sub : Sub) (s : State) : (enter ph cnt sub s).trace = s.trace := rfl
@[simp] theorem enter_hostIn (ph : Phase) (cnt : Nat) (sub : Sub) (s : State) : (enter ph cnt sub s).hostIn = s.hostIn := rfl
@[simp] theorem enter_env (ph : Phase) (cnt : Nat) (sub : Sub) (s : State) : (enter ph cnt sub s).env = s.env := rfl

@[simp] theorem clearShr_cfg (s : State) : (clearShr s).cfg = s.cfg := rfl
@[simp] theorem clearShr_aOp (s : State) : (clearShr s).aOp = s.aOp := rfl
@[simp] theorem clearShr_aDev (s : State) : (clearShr s).aDev = s.aDev := rfl
@[simp] theorem clearShr_aReg (s : State) : (clearShr s).aReg = s.aReg := rfl
@[simp] theorem clearShr_aVal (s : State) : (clearShr s).aVal = s.aVal := rfl
@[simp] theorem clearShr_aVal2 (s : State) : (clearShr s).aVal2 = s.aVal2 := rfl
@[simp] theorem clearShr_shr (s : State) : (clearShr s).shr = 0 := rfl
@[simp] theorem clearShr_result (s : State) : (clearShr s).result = s.result := rfl
@[simp] theorem clearShr_status (s : State) : (clearShr s).status = s.status := rfl
@[simp] theorem clearShr_done (s : State) : (clearShr s).done = s.done := rfl
@[simp] theorem clearShr_busy (s : State) : (clearShr s).busy = s.busy := rfl
@[simp] theorem clearShr_m1 (s : State) : (clearShr s).m1 = s.m1 := rfl
@[simp] theorem clearShr_polls (s : State) : (clearShr s).polls = s.polls := rfl
@[simp] theorem clearShr_seq (s : State) : (clearShr s).seq = s.seq := rfl
@[simp] theorem clearShr_mdcOe (s : State) : (clearShr s).mdcOe = s.mdcOe := rfl
@[simp] theorem clearShr_mdcO (s : State) : (clearShr s).mdcO = s.mdcO := rfl
@[simp] theorem clearShr_mdioOe (s : State) : (clearShr s).mdioOe = s.mdioOe := rfl
@[simp] theorem clearShr_mdioO (s : State) : (clearShr s).mdioO = s.mdioO := rfl
@[simp] theorem clearShr_trace (s : State) : (clearShr s).trace = s.trace := rfl
@[simp] theorem clearShr_hostIn (s : State) : (clearShr s).hostIn = s.hostIn := rfl
@[simp] theorem clearShr_env (s : State) : (clearShr s).env = s.env := rfl

@[simp] theorem shiftShr_cfg (b : Level) (s : State) : (shiftShr b s).cfg = s.cfg := rfl
@[simp] theorem shiftShr_aOp (b : Level) (s : State) : (shiftShr b s).aOp = s.aOp := rfl
@[simp] theorem shiftShr_aDev (b : Level) (s : State) : (shiftShr b s).aDev = s.aDev := rfl
@[simp] theorem shiftShr_aReg (b : Level) (s : State) : (shiftShr b s).aReg = s.aReg := rfl
@[simp] theorem shiftShr_aVal (b : Level) (s : State) : (shiftShr b s).aVal = s.aVal := rfl
@[simp] theorem shiftShr_aVal2 (b : Level) (s : State) : (shiftShr b s).aVal2 = s.aVal2 := rfl
@[simp] theorem shiftShr_shr (b : Level) (s : State) : (shiftShr b s).shr = shiftIn s.shr b := rfl
@[simp] theorem shiftShr_result (b : Level) (s : State) : (shiftShr b s).result = s.result := rfl
@[simp] theorem shiftShr_status (b : Level) (s : State) : (shiftShr b s).status = s.status := rfl
@[simp] theorem shiftShr_done (b : Level) (s : State) : (shiftShr b s).done = s.done := rfl
@[simp] theorem shiftShr_busy (b : Level) (s : State) : (shiftShr b s).busy = s.busy := rfl
@[simp] theorem shiftShr_m1 (b : Level) (s : State) : (shiftShr b s).m1 = s.m1 := rfl
@[simp] theorem shiftShr_polls (b : Level) (s : State) : (shiftShr b s).polls = s.polls := rfl
@[simp] theorem shiftShr_seq (b : Level) (s : State) : (shiftShr b s).seq = s.seq := rfl
@[simp] theorem shiftShr_mdcOe (b : Level) (s : State) : (shiftShr b s).mdcOe = s.mdcOe := rfl
@[simp] theorem shiftShr_mdcO (b : Level) (s : State) : (shiftShr b s).mdcO = s.mdcO := rfl
@[simp] theorem shiftShr_mdioOe (b : Level) (s : State) : (shiftShr b s).mdioOe = s.mdioOe := rfl
@[simp] theorem shiftShr_mdioO (b : Level) (s : State) : (shiftShr b s).mdioO = s.mdioO := rfl
@[simp] theorem shiftShr_trace (b : Level) (s : State) : (shiftShr b s).trace = s.trace := rfl
@[simp] theorem shiftShr_hostIn (b : Level) (s : State) : (shiftShr b s).hostIn = s.hostIn := rfl
@[simp] theorem shiftShr_env (b : Level) (s : State) : (shiftShr b s).env = s.env := rfl

@[simp] theorem raise_cfg (code : Status) (s : State) : (raise code s).cfg = s.cfg := rfl
@[simp] theorem raise_aOp (code : Status) (s : State) : (raise code s).aOp = s.aOp := rfl
@[simp] theorem raise_aDev (code : Status) (s : State) : (raise code s).aDev = s.aDev := rfl
@[simp] theorem raise_aReg (code : Status) (s : State) : (raise code s).aReg = s.aReg := rfl
@[simp] theorem raise_aVal (code : Status) (s : State) : (raise code s).aVal = s.aVal := rfl
@[simp] theorem raise_aVal2 (code : Status) (s : State) : (raise code s).aVal2 = s.aVal2 := rfl
@[simp] theorem raise_shr (code : Status) (s : State) : (raise code s).shr = s.shr := rfl
@[simp] theorem raise_result (code : Status) (s : State) : (raise code s).result = 0 := rfl
@[simp] theorem raise_status (code : Status) (s : State) : (raise code s).status = code := rfl
@[simp] theorem raise_done (code : Status) (s : State) : (raise code s).done = true := rfl
@[simp] theorem raise_busy (code : Status) (s : State) : (raise code s).busy = s.busy := rfl
@[simp] theorem raise_m1 (code : Status) (s : State) : (raise code s).m1 = s.m1 := rfl
@[simp] theorem raise_polls (code : Status) (s : State) : (raise code s).polls = s.polls := rfl
@[simp] theorem raise_seq (code : Status) (s : State) : (raise code s).seq = s.seq := rfl
@[simp] theorem raise_mdcOe (code : Status) (s : State) : (raise code s).mdcOe = s.mdcOe := rfl
@[simp] theorem raise_mdcO (code : Status) (s : State) : (raise code s).mdcO = s.mdcO := rfl
@[simp] theorem raise_mdioOe (code : Status) (s : State) : (raise code s).mdioOe = s.mdioOe := rfl
@[simp] theorem raise_mdioO (code : Status) (s : State) : (raise code s).mdioO = s.mdioO := rfl
@[simp] theorem raise_trace (code : Status) (s : State) : (raise code s).trace = s.trace := rfl
@[simp] theorem raise_hostIn (code : Status) (s : State) : (raise code s).hostIn = s.hostIn := rfl
@[simp] theorem raise_env (code : Status) (s : State) : (raise code s).env = s.env := rfl

@[simp] theorem finish_cfg (s : State) : (finish s).cfg = s.cfg := rfl
@[simp] theorem finish_aOp (s : State) : (finish s).aOp = s.aOp := rfl
@[simp] theorem finish_aDev (s : State) : (finish s).aDev = s.aDev := rfl
@[simp] theorem finish_aReg (s : State) : (finish s).aReg = s.aReg := rfl
@[simp] theorem finish_aVal (s : State) : (finish s).aVal = s.aVal := rfl
@[simp] theorem finish_aVal2 (s : State) : (finish s).aVal2 = s.aVal2 := rfl
@[simp] theorem finish_shr (s : State) : (finish s).shr = s.shr := rfl
@[simp] theorem finish_result (s : State) : (finish s).result = s.result := rfl
@[simp] theorem finish_status (s : State) : (finish s).status = s.status := rfl
@[simp] theorem finish_done (s : State) : (finish s).done = s.done := rfl
@[simp] theorem finish_busy (s : State) : (finish s).busy = false := rfl
@[simp] theorem finish_m1 (s : State) : (finish s).m1 = s.m1 := rfl
@[simp] theorem finish_polls (s : State) : (finish s).polls = s.polls := rfl
@[simp] theorem finish_seq (s : State) : (finish s).seq = Seq.idle := rfl
@[simp] theorem finish_mdcOe (s : State) : (finish s).mdcOe = s.mdcOe := rfl
@[simp] theorem finish_mdcO (s : State) : (finish s).mdcO = s.mdcO := rfl
@[simp] theorem finish_mdioOe (s : State) : (finish s).mdioOe = s.mdioOe := rfl
@[simp] theorem finish_mdioO (s : State) : (finish s).mdioO = s.mdioO := rfl
@[simp] theorem finish_trace (s : State) : (finish s).trace = s.trace := rfl
@[simp] theorem finish_hostIn (s : State) : (finish s).hostIn = s.hostIn := rfl
@[simp] theorem finish_env (s : State) : (finish s).env = s.env := rfl

@[simp] theorem complete_cfg (v : Word16) (s : State) : (complete v s).cfg = s.cfg := rfl
@[simp] theorem complete_aOp (v : Word16) (s : State) : (complete v s).aOp = s.aOp := rfl
@[simp] theorem complete_aDev (v : Word16) (s : State) : (complete v s).aDev = s.aDev := rfl
@[simp] theorem complete_aReg (v : Word16) (s : State) : (complete v s).aReg = s.aReg := rfl
@[simp] theorem complete_aVal (v : Word16) (s : State) : (complete v s).aVal = s.aVal := rfl
@[simp] theorem complete_aVal2 (v : Word16) (s : State) : (complete v s).aVal2 = s.aVal2 := rfl
@[simp] theorem complete_shr (v : Word16) (s : State) : (complete v s).shr = s.shr := rfl
@[simp] theorem complete_result (v : Word16) (s : State) : (complete v s).result = v := rfl
@[simp] theorem complete_status (v : Word16) (s : State) : (complete v s).status = .ok := rfl
@[simp] theorem complete_done (v : Word16) (s : State) : (complete v s).done = true := rfl
@[simp] theorem complete_busy (v : Word16) (s : State) : (complete v s).busy = false := rfl
@[simp] theorem complete_m1 (v : Word16) (s : State) : (complete v s).m1 = s.m1 := rfl
@[simp] theorem complete_polls (v : Word16) (s : State) : (complete v s).polls = s.polls := rfl
@[simp] theorem complete_seq (v : Word16) (s : State) : (complete v s).seq = Seq.idle := rfl
@[simp] theorem complete_mdcOe (v : Word16) (s : State) : (complete v s).mdcOe = s.mdcOe := rfl
@[simp] theorem complete_mdcO (v : Word16) (s : State) : (complete v s).mdcO = s.mdcO := rfl
@[simp] theorem complete_mdioOe (v : Word16) (s : State) : (complete v s).mdioOe = s.mdioOe := rfl
@[simp] theorem complete_mdioO (v : Word16) (s : State) : (complete v s).mdioO = s.mdioO := rfl
@[simp] theorem complete_trace (v : Word16) (s : State) : (complete v s).trace = s.trace := rfl
@[simp] theorem complete_hostIn (v : Word16) (s : State) : (complete v s).hostIn = s.hostIn := rfl
@[simp] theorem complete_env (v : Word16) (s : State) : (complete v s).env = s.env := rfl

@[simp] theorem startFrame_cfg (k : Fin 3) (s : State) : (startFrame k s).cfg = s.cfg := rfl
@[simp] theorem startFrame_aOp (k : Fin 3) (s : State) : (startFrame k s).aOp = s.aOp := rfl
@[simp] theorem startFrame_aDev (k : Fin 3) (s : State) : (startFrame k s).aDev = s.aDev := rfl
@[simp] theorem startFrame_aReg (k : Fin 3) (s : State) : (startFrame k s).aReg = s.aReg := rfl
@[simp] theorem startFrame_aVal (k : Fin 3) (s : State) : (startFrame k s).aVal = s.aVal := rfl
@[simp] theorem startFrame_aVal2 (k : Fin 3) (s : State) : (startFrame k s).aVal2 = s.aVal2 := rfl
@[simp] theorem startFrame_shr (k : Fin 3) (s : State) : (startFrame k s).shr = s.shr := rfl
@[simp] theorem startFrame_result (k : Fin 3) (s : State) : (startFrame k s).result = s.result := rfl
@[simp] theorem startFrame_status (k : Fin 3) (s : State) : (startFrame k s).status = s.status := rfl
@[simp] theorem startFrame_done (k : Fin 3) (s : State) : (startFrame k s).done = s.done := rfl
@[simp] theorem startFrame_busy (k : Fin 3) (s : State) : (startFrame k s).busy = s.busy := rfl
@[simp] theorem startFrame_m1 (k : Fin 3) (s : State) : (startFrame k s).m1 = s.m1 := rfl
@[simp] theorem startFrame_polls (k : Fin 3) (s : State) : (startFrame k s).polls = s.polls := rfl
@[simp] theorem startFrame_seq (k : Fin 3) (s : State) : (startFrame k s).seq = Seq.startOf k := rfl
@[simp] theorem startFrame_mdcOe (k : Fin 3) (s : State) : (startFrame k s).mdcOe = s.mdcOe := rfl
@[simp] theorem startFrame_mdcO (k : Fin 3) (s : State) : (startFrame k s).mdcO = s.mdcO := rfl
@[simp] theorem startFrame_mdioOe (k : Fin 3) (s : State) : (startFrame k s).mdioOe = s.mdioOe := rfl
@[simp] theorem startFrame_mdioO (k : Fin 3) (s : State) : (startFrame k s).mdioO = s.mdioO := rfl
@[simp] theorem startFrame_trace (k : Fin 3) (s : State) : (startFrame k s).trace = s.trace := rfl
@[simp] theorem startFrame_hostIn (k : Fin 3) (s : State) : (startFrame k s).hostIn = s.hostIn := rfl
@[simp] theorem startFrame_env (k : Fin 3) (s : State) : (startFrame k s).env = s.env := rfl

@[simp] theorem clearDone_cfg (s : State) : (clearDone s).cfg = s.cfg := rfl
@[simp] theorem clearDone_aOp (s : State) : (clearDone s).aOp = s.aOp := rfl
@[simp] theorem clearDone_aDev (s : State) : (clearDone s).aDev = s.aDev := rfl
@[simp] theorem clearDone_aReg (s : State) : (clearDone s).aReg = s.aReg := rfl
@[simp] theorem clearDone_aVal (s : State) : (clearDone s).aVal = s.aVal := rfl
@[simp] theorem clearDone_aVal2 (s : State) : (clearDone s).aVal2 = s.aVal2 := rfl
@[simp] theorem clearDone_shr (s : State) : (clearDone s).shr = s.shr := rfl
@[simp] theorem clearDone_result (s : State) : (clearDone s).result = s.result := rfl
@[simp] theorem clearDone_status (s : State) : (clearDone s).status = s.status := rfl
@[simp] theorem clearDone_done (s : State) : (clearDone s).done = false := rfl
@[simp] theorem clearDone_busy (s : State) : (clearDone s).busy = s.busy := rfl
@[simp] theorem clearDone_m1 (s : State) : (clearDone s).m1 = s.m1 := rfl
@[simp] theorem clearDone_polls (s : State) : (clearDone s).polls = s.polls := rfl
@[simp] theorem clearDone_seq (s : State) : (clearDone s).seq = s.seq := rfl
@[simp] theorem clearDone_mdcOe (s : State) : (clearDone s).mdcOe = s.mdcOe := rfl
@[simp] theorem clearDone_mdcO (s : State) : (clearDone s).mdcO = s.mdcO := rfl
@[simp] theorem clearDone_mdioOe (s : State) : (clearDone s).mdioOe = s.mdioOe := rfl
@[simp] theorem clearDone_mdioO (s : State) : (clearDone s).mdioO = s.mdioO := rfl
@[simp] theorem clearDone_trace (s : State) : (clearDone s).trace = s.trace := rfl
@[simp] theorem clearDone_hostIn (s : State) : (clearDone s).hostIn = s.hostIn := rfl
@[simp] theorem clearDone_env (s : State) : (clearDone s).env = s.env := rfl

@[simp] theorem beginCommand_cfg (s : State) : (beginCommand s).cfg = s.cfg := rfl
@[simp] theorem beginCommand_aOp (s : State) : (beginCommand s).aOp = s.aOp := rfl
@[simp] theorem beginCommand_aDev (s : State) : (beginCommand s).aDev = s.aDev := rfl
@[simp] theorem beginCommand_aReg (s : State) : (beginCommand s).aReg = s.aReg := rfl
@[simp] theorem beginCommand_aVal (s : State) : (beginCommand s).aVal = s.aVal := rfl
@[simp] theorem beginCommand_aVal2 (s : State) : (beginCommand s).aVal2 = s.aVal2 := rfl
@[simp] theorem beginCommand_shr (s : State) : (beginCommand s).shr = s.shr := rfl
@[simp] theorem beginCommand_result (s : State) : (beginCommand s).result = s.result := rfl
@[simp] theorem beginCommand_status (s : State) : (beginCommand s).status = s.status := rfl
@[simp] theorem beginCommand_done (s : State) : (beginCommand s).done = s.done := rfl
@[simp] theorem beginCommand_busy (s : State) : (beginCommand s).busy = true := rfl
@[simp] theorem beginCommand_m1 (s : State) : (beginCommand s).m1 = false := rfl
@[simp] theorem beginCommand_polls (s : State) : (beginCommand s).polls = 0 := rfl
@[simp] theorem beginCommand_seq (s : State) : (beginCommand s).seq = Seq.startOf 0 := rfl
@[simp] theorem beginCommand_mdcOe (s : State) : (beginCommand s).mdcOe = s.mdcOe := rfl
@[simp] theorem beginCommand_mdcO (s : State) : (beginCommand s).mdcO = s.mdcO := rfl
@[simp] theorem beginCommand_mdioOe (s : State) : (beginCommand s).mdioOe = s.mdioOe := rfl
@[simp] theorem beginCommand_mdioO (s : State) : (beginCommand s).mdioO = s.mdioO := rfl
@[simp] theorem beginCommand_trace (s : State) : (beginCommand s).trace = s.trace := rfl
@[simp] theorem beginCommand_hostIn (s : State) : (beginCommand s).hostIn = s.hostIn := rfl
@[simp] theorem beginCommand_env (s : State) : (beginCommand s).env = s.env := rfl

@[simp] theorem latch_cfg (op : BitVec 3) (a : CmdOperands) (s : State) : (latch op a s).cfg = s.cfg := rfl
@[simp] theorem latch_aOp (op : BitVec 3) (a : CmdOperands) (s : State) : (latch op a s).aOp = op := rfl
@[simp] theorem latch_aDev (op : BitVec 3) (a : CmdOperands) (s : State) : (latch op a s).aDev = BitVec.ofNat 5 a.dev := rfl
@[simp] theorem latch_aReg (op : BitVec 3) (a : CmdOperands) (s : State) : (latch op a s).aReg = BitVec.ofNat 16 a.reg := rfl
@[simp] theorem latch_aVal (op : BitVec 3) (a : CmdOperands) (s : State) : (latch op a s).aVal = BitVec.ofNat 16 a.val := rfl
@[simp] theorem latch_aVal2 (op : BitVec 3) (a : CmdOperands) (s : State) : (latch op a s).aVal2 = BitVec.ofNat 16 a.val2 := rfl
@[simp] theorem latch_shr (op : BitVec 3) (a : CmdOperands) (s : State) : (latch op a s).shr = s.shr := rfl
@[simp] theorem latch_result (op : BitVec 3) (a : CmdOperands) (s : State) : (latch op a s).result = s.result := rfl
@[simp] theorem latch_status (op : BitVec 3) (a : CmdOperands) (s : State) : (latch op a s).status = s.status := rfl
@[simp] theorem latch_done (op : BitVec 3) (a : CmdOperands) (s : State) : (latch op a s).done = s.done := rfl
@[simp] theorem latch_busy (op : BitVec 3) (a : CmdOperands) (s : State) : (latch op a s).busy = s.busy := rfl
@[simp] theorem latch_m1 (op : BitVec 3) (a : CmdOperands) (s : State) : (latch op a s).m1 = s.m1 := rfl
@[simp] theorem latch_polls (op : BitVec 3) (a : CmdOperands) (s : State) : (latch op a s).polls = s.polls := rfl
@[simp] theorem latch_seq (op : BitVec 3) (a : CmdOperands) (s : State) : (latch op a s).seq = s.seq := rfl
@[simp] theorem latch_mdcOe (op : BitVec 3) (a : CmdOperands) (s : State) : (latch op a s).mdcOe = s.mdcOe := rfl
@[simp] theorem latch_mdcO (op : BitVec 3) (a : CmdOperands) (s : State) : (latch op a s).mdcO = s.mdcO := rfl
@[simp] theorem latch_mdioOe (op : BitVec 3) (a : CmdOperands) (s : State) : (latch op a s).mdioOe = s.mdioOe := rfl
@[simp] theorem latch_mdioO (op : BitVec 3) (a : CmdOperands) (s : State) : (latch op a s).mdioO = s.mdioO := rfl
@[simp] theorem latch_trace (op : BitVec 3) (a : CmdOperands) (s : State) : (latch op a s).trace = s.trace := rfl
@[simp] theorem latch_hostIn (op : BitVec 3) (a : CmdOperands) (s : State) : (latch op a s).hostIn = s.hostIn := rfl
@[simp] theorem latch_env (op : BitVec 3) (a : CmdOperands) (s : State) : (latch op a s).env = s.env := rfl

@[simp] theorem setM1_cfg (s : State) : (setM1 s).cfg = s.cfg := rfl
@[simp] theorem setM1_aOp (s : State) : (setM1 s).aOp = s.aOp := rfl
@[simp] theorem setM1_aDev (s : State) : (setM1 s).aDev = s.aDev := rfl
@[simp] theorem setM1_aReg (s : State) : (setM1 s).aReg = s.aReg := rfl
@[simp] theorem setM1_aVal (s : State) : (setM1 s).aVal = s.aVal := rfl
@[simp] theorem setM1_aVal2 (s : State) : (setM1 s).aVal2 = s.aVal2 := rfl
@[simp] theorem setM1_shr (s : State) : (setM1 s).shr = s.shr := rfl
@[simp] theorem setM1_result (s : State) : (setM1 s).result = s.result := rfl
@[simp] theorem setM1_status (s : State) : (setM1 s).status = s.status := rfl
@[simp] theorem setM1_done (s : State) : (setM1 s).done = s.done := rfl
@[simp] theorem setM1_busy (s : State) : (setM1 s).busy = s.busy := rfl
@[simp] theorem setM1_m1 (s : State) : (setM1 s).m1 = idHighMatches s := rfl
@[simp] theorem setM1_polls (s : State) : (setM1 s).polls = s.polls := rfl
@[simp] theorem setM1_seq (s : State) : (setM1 s).seq = s.seq := rfl
@[simp] theorem setM1_mdcOe (s : State) : (setM1 s).mdcOe = s.mdcOe := rfl
@[simp] theorem setM1_mdcO (s : State) : (setM1 s).mdcO = s.mdcO := rfl
@[simp] theorem setM1_mdioOe (s : State) : (setM1 s).mdioOe = s.mdioOe := rfl
@[simp] theorem setM1_mdioO (s : State) : (setM1 s).mdioO = s.mdioO := rfl
@[simp] theorem setM1_trace (s : State) : (setM1 s).trace = s.trace := rfl
@[simp] theorem setM1_hostIn (s : State) : (setM1 s).hostIn = s.hostIn := rfl
@[simp] theorem setM1_env (s : State) : (setM1 s).env = s.env := rfl

@[simp] theorem countPoll_cfg (s : State) : (countPoll s).cfg = s.cfg := rfl
@[simp] theorem countPoll_aOp (s : State) : (countPoll s).aOp = s.aOp := rfl
@[simp] theorem countPoll_aDev (s : State) : (countPoll s).aDev = s.aDev := rfl
@[simp] theorem countPoll_aReg (s : State) : (countPoll s).aReg = s.aReg := rfl
@[simp] theorem countPoll_aVal (s : State) : (countPoll s).aVal = s.aVal := rfl
@[simp] theorem countPoll_aVal2 (s : State) : (countPoll s).aVal2 = s.aVal2 := rfl
@[simp] theorem countPoll_shr (s : State) : (countPoll s).shr = s.shr := rfl
@[simp] theorem countPoll_result (s : State) : (countPoll s).result = s.result := rfl
@[simp] theorem countPoll_status (s : State) : (countPoll s).status = s.status := rfl
@[simp] theorem countPoll_done (s : State) : (countPoll s).done = s.done := rfl
@[simp] theorem countPoll_busy (s : State) : (countPoll s).busy = s.busy := rfl
@[simp] theorem countPoll_m1 (s : State) : (countPoll s).m1 = s.m1 := rfl
@[simp] theorem countPoll_polls (s : State) : (countPoll s).polls = s.polls + 1 := rfl
@[simp] theorem countPoll_seq (s : State) : (countPoll s).seq = s.seq := rfl
@[simp] theorem countPoll_mdcOe (s : State) : (countPoll s).mdcOe = s.mdcOe := rfl
@[simp] theorem countPoll_mdcO (s : State) : (countPoll s).mdcO = s.mdcO := rfl
@[simp] theorem countPoll_mdioOe (s : State) : (countPoll s).mdioOe = s.mdioOe := rfl
@[simp] theorem countPoll_mdioO (s : State) : (countPoll s).mdioO = s.mdioO := rfl
@[simp] theorem countPoll_trace (s : State) : (countPoll s).trace = s.trace := rfl
@[simp] theorem countPoll_hostIn (s : State) : (countPoll s).hostIn = s.hostIn := rfl
@[simp] theorem countPoll_env (s : State) : (countPoll s).env = s.env := rfl

@[simp] theorem nextInput_cfg (s : State) : (nextInput s).cfg = s.cfg := rfl
@[simp] theorem nextInput_aOp (s : State) : (nextInput s).aOp = s.aOp := rfl
@[simp] theorem nextInput_aDev (s : State) : (nextInput s).aDev = s.aDev := rfl
@[simp] theorem nextInput_aReg (s : State) : (nextInput s).aReg = s.aReg := rfl
@[simp] theorem nextInput_aVal (s : State) : (nextInput s).aVal = s.aVal := rfl
@[simp] theorem nextInput_aVal2 (s : State) : (nextInput s).aVal2 = s.aVal2 := rfl
@[simp] theorem nextInput_shr (s : State) : (nextInput s).shr = s.shr := rfl
@[simp] theorem nextInput_result (s : State) : (nextInput s).result = s.result := rfl
@[simp] theorem nextInput_status (s : State) : (nextInput s).status = s.status := rfl
@[simp] theorem nextInput_done (s : State) : (nextInput s).done = s.done := rfl
@[simp] theorem nextInput_busy (s : State) : (nextInput s).busy = s.busy := rfl
@[simp] theorem nextInput_m1 (s : State) : (nextInput s).m1 = s.m1 := rfl
@[simp] theorem nextInput_polls (s : State) : (nextInput s).polls = s.polls := rfl
@[simp] theorem nextInput_seq (s : State) : (nextInput s).seq = s.seq := rfl
@[simp] theorem nextInput_mdcOe (s : State) : (nextInput s).mdcOe = s.mdcOe := rfl
@[simp] theorem nextInput_mdcO (s : State) : (nextInput s).mdcO = s.mdcO := rfl
@[simp] theorem nextInput_mdioOe (s : State) : (nextInput s).mdioOe = s.mdioOe := rfl
@[simp] theorem nextInput_mdioO (s : State) : (nextInput s).mdioO = s.mdioO := rfl
@[simp] theorem nextInput_trace (s : State) : (nextInput s).trace = s.trace := rfl
@[simp] theorem nextInput_hostIn (s : State) : (nextInput s).hostIn = s.hostIn.tail := rfl
@[simp] theorem nextInput_env (s : State) : (nextInput s).env = s.env := rfl

@[simp] theorem dropInputs_cfg (n : Nat) (s : State) : (dropInputs n s).cfg = s.cfg := rfl
@[simp] theorem dropInputs_aOp (n : Nat) (s : State) : (dropInputs n s).aOp = s.aOp := rfl
@[simp] theorem dropInputs_aDev (n : Nat) (s : State) : (dropInputs n s).aDev = s.aDev := rfl
@[simp] theorem dropInputs_aReg (n : Nat) (s : State) : (dropInputs n s).aReg = s.aReg := rfl
@[simp] theorem dropInputs_aVal (n : Nat) (s : State) : (dropInputs n s).aVal = s.aVal := rfl
@[simp] theorem dropInputs_aVal2 (n : Nat) (s : State) : (dropInputs n s).aVal2 = s.aVal2 := rfl
@[simp] theorem dropInputs_shr (n : Nat) (s : State) : (dropInputs n s).shr = s.shr := rfl
@[simp] theorem dropInputs_result (n : Nat) (s : State) : (dropInputs n s).result = s.result := rfl
@[simp] theorem dropInputs_status (n : Nat) (s : State) : (dropInputs n s).status = s.status := rfl
@[simp] theorem dropInputs_done (n : Nat) (s : State) : (dropInputs n s).done = s.done := rfl
@[simp] theorem dropInputs_busy (n : Nat) (s : State) : (dropInputs n s).busy = s.busy := rfl
@[simp] theorem dropInputs_m1 (n : Nat) (s : State) : (dropInputs n s).m1 = s.m1 := rfl
@[simp] theorem dropInputs_polls (n : Nat) (s : State) : (dropInputs n s).polls = s.polls := rfl
@[simp] theorem dropInputs_seq (n : Nat) (s : State) : (dropInputs n s).seq = s.seq := rfl
@[simp] theorem dropInputs_mdcOe (n : Nat) (s : State) : (dropInputs n s).mdcOe = s.mdcOe := rfl
@[simp] theorem dropInputs_mdcO (n : Nat) (s : State) : (dropInputs n s).mdcO = s.mdcO := rfl
@[simp] theorem dropInputs_mdioOe (n : Nat) (s : State) : (dropInputs n s).mdioOe = s.mdioOe := rfl
@[simp] theorem dropInputs_mdioO (n : Nat) (s : State) : (dropInputs n s).mdioO = s.mdioO := rfl
@[simp] theorem dropInputs_trace (n : Nat) (s : State) : (dropInputs n s).trace = s.trace := rfl
@[simp] theorem dropInputs_hostIn (n : Nat) (s : State) : (dropInputs n s).hostIn = s.hostIn.drop n := rfl
@[simp] theorem dropInputs_env (n : Nat) (s : State) : (dropInputs n s).env = s.env := rfl

@[simp] theorem hardwareReset_cfg (s : State) : (hardwareReset s).cfg = s.cfg := rfl
@[simp] theorem hardwareReset_aOp (s : State) : (hardwareReset s).aOp = 0 := rfl
@[simp] theorem hardwareReset_aDev (s : State) : (hardwareReset s).aDev = 0 := rfl
@[simp] theorem hardwareReset_aReg (s : State) : (hardwareReset s).aReg = 0 := rfl
@[simp] theorem hardwareReset_aVal (s : State) : (hardwareReset s).aVal = 0 := rfl
@[simp] theorem hardwareReset_aVal2 (s : State) : (hardwareReset s).aVal2 = 0 := rfl
@[simp] theorem hardwareReset_shr (s : State) : (hardwareReset s).shr = 0 := rfl
@[simp] theorem hardwareReset_result (s : State) : (hardwareReset s).result = 0 := rfl
@[simp] theorem hardwareReset_status (s : State) : (hardwareReset s).status = .ok := rfl
@[simp] theorem hardwareReset_done (s : State) : (hardwareReset s).done = false := rfl
@[simp] theorem hardwareReset_busy (s : State) : (hardwareReset s).busy = false := rfl
@[simp] theorem hardwareReset_m1 (s : State) : (hardwareReset s).m1 = false := rfl
@[simp] theorem hardwareReset_polls (s : State) : (hardwareReset s).polls = 0 := rfl
@[simp] theorem hardwareReset_seq (s : State) : (hardwareReset s).seq = Seq.idle := rfl
@[simp] theorem hardwareReset_mdcOe (s : State) : (hardwareReset s).mdcOe = true := rfl
@[simp] theorem hardwareReset_mdcO (s : State) : (hardwareReset s).mdcO = false := rfl
@[simp] theorem hardwareReset_mdioOe (s : State) : (hardwareReset s).mdioOe = false := rfl
@[simp] theorem hardwareReset_mdioO (s : State) : (hardwareReset s).mdioO = true := rfl
@[simp] theorem hardwareReset_trace (s : State) : (hardwareReset s).trace = [] := rfl
@[simp] theorem hardwareReset_hostIn (s : State) : (hardwareReset s).hostIn = s.hostIn := rfl
@[simp] theorem hardwareReset_env (s : State) : (hardwareReset s).env = s.env := rfl

/-! The two positions of `SEQ` that have a name, field by field. -/

@[simp] theorem Seq.idle_xact : Seq.idle.xact = 0 := rfl
@[simp] theorem Seq.idle_ph : Seq.idle.ph = .idle := rfl
@[simp] theorem Seq.idle_cnt : Seq.idle.cnt = 0 := rfl
@[simp] theorem Seq.idle_sub : Seq.idle.sub = .data := rfl
@[simp] theorem Seq.startOf_xact (k : Fin 3) : (Seq.startOf k).xact = k := rfl
@[simp] theorem Seq.startOf_ph (k : Fin 3) : (Seq.startOf k).ph = .start := rfl
@[simp] theorem Seq.startOf_cnt (k : Fin 3) : (Seq.startOf k).cnt = 0 := rfl
@[simp] theorem Seq.startOf_sub (k : Fin 3) : (Seq.startOf k).sub = .data := rfl

end Sys2Proof.Machine
end

