-- ==== Sys2Proof/Laws/Step.lean ====
section
/-! SUPPORT. What a step can do, said once; runs; the environment's answers; the host's pins. -/

namespace Sys2Proof.Machine

/-! ### The three kinds of step (60_exceptions.md R147) -/

theorem step_reset {s : State} (h : (hostPins s).rst = true) : step s = .next (hardwareReset (nextInput s)) := by
  simp [step, work, h]

theorem step_engine {s : State} {i : Instr} (h : (hostPins s).rst = false) (hb : s.busy = true)
    (hi : currentFrame s = some i) : step s = exec i (nextInput s) := by
  simp [step, work, engineWork, h, hb, hi]

theorem step_command {s : State} {i : Instr} (h : (hostPins s).rst = false) (hb : s.busy = false)
    (hv : (hostPins s).cmdValid = true) (hi : decodeCommand s.cfg.argw (hostPins s).cmd = .ok i) :
    step s = exec i (nextInput s) := by
  simp [step, work, hostWork, h, hb, hv, hi]

theorem step_wait {s : State} (h : (hostPins s).rst = false) (hb : s.busy = false)
    (hv : (hostPins s).cmdValid = false) : step s = .next (nextInput s) := by
  simp [step, work, hostWork, h, hb, hv]

/-- Everything a step that answers a next state can have done. -/
theorem step_cases {s t : State} (h : step s = .next t) :
    ((hostPins s).rst = true ∧ t = hardwareReset (nextInput s)) ∨
    ((hostPins s).rst = false ∧ s.busy = true ∧ ∃ i, currentFrame s = some i ∧ exec i (nextInput s) = .next t) ∨
    ((hostPins s).rst = false ∧ s.busy = false ∧ (hostPins s).cmdValid = true ∧
      ∃ i, decodeCommand s.cfg.argw (hostPins s).cmd = .ok i ∧ exec i (nextInput s) = .next t) ∨
    ((hostPins s).rst = false ∧ s.busy = false ∧ (hostPins s).cmdValid = false ∧ t = nextInput s) := by
  cases hr : (hostPins s).rst
  · cases hb : s.busy
    · cases hv : (hostPins s).cmdValid
      · rw [step_wait hr hb hv] at h
        exact .inr (.inr (.inr ⟨rfl, rfl, rfl, (Host.Outcome.next.inj h).symm⟩))
      · cases hi : decodeCommand s.cfg.argw (hostPins s).cmd with
        | error e => simp [step, work, hostWork, hr, hb, hv, hi] at h
        | ok i =>
          rw [step_command hr hb hv hi] at h
          exact .inr (.inr (.inl ⟨rfl, rfl, rfl, i, rfl, h⟩))
    · cases hi : currentFrame s with
      | none => simp [step, work, engineWork, hr, hb, hi] at h
      | some i =>
        rw [step_engine hr hb hi] at h
        exact .inr (.inl ⟨rfl, rfl, i, rfl, h⟩)
  · rw [step_reset hr] at h
    exact .inl ⟨rfl, (Host.Outcome.next.inj h).symm⟩

/-- The frame the engine runs is that of the current transaction (40_codec.md R88). -/
theorem currentFrame_of_transaction {s : State} {x : Transaction} (h : currentTransaction s = some x) :
    currentFrame s =
      some (if x.read then .frameRead s.aDev x.reg else .frameWrite s.aDev x.reg x.data) := by
  simp only [currentFrame, h]
  cases x.read <;> rfl

theorem currentFrame_some {s : State} {i : Instr} (h : currentFrame s = some i) :
    ∃ x, currentTransaction s = some x ∧
      i = if x.read then .frameRead s.aDev x.reg else .frameWrite s.aDev x.reg x.data := by
  cases hx : currentTransaction s with
  | none => simp [currentFrame, hx] at h
  | some x =>
    rw [currentFrame_of_transaction hx] at h
    exact ⟨x, rfl, (Option.some.inj h).symm⟩

/-! ### Runs -/

@[simp] theorem run_zero (s : State) : run 0 s = .next s := rfl

theorem run_succ {n : Nat} {s t : State} (h : step s = .next t) : run (n + 1) s = run n t := by
  simp [run, h]

/-- A run is the host's run of the core. -/
theorem run_eq_core_run (n : Nat) (s : State) : run n s = Sys2Proof.core.run n s := by
  induction n generalizing s with
  | zero => rfl
  | succ n ih =>
    simp only [run, Host.Core.run]
    cases h : step s with
    | next t =>
      rw [show Sys2Proof.core.step s = .next t from h]
      exact ih t
    | fault r =>
      rw [show Sys2Proof.core.step s = .fault r from h]
      rfl
    | refused r =>
      rw [show Sys2Proof.core.step s = .refused r from h]
      rfl

/-- Runs compose. -/
theorem run_add {m n : Nat} {s t : State} (h : run m s = .next t) : run (m + n) s = run n t := by
  induction m generalizing s with
  | zero =>
    cases h
    simp
  | succ m ih =>
    rw [show m + 1 + n = (m + n) + 1 by omega]
    simp only [run] at h ⊢
    cases hs : step s with
    | next u =>
      simp only [hs] at h ⊢
      exact ih h
    | fault r => simp [hs] at h
    | refused r => simp [hs] at h

/-! ### The host's pins -/

theorem NoReset.head {n : Nat} {s : State} (h : NoReset (n + 1) s) : (hostPins s).rst = false := by
  unfold hostPins
  cases hs : s.hostIn with
  | nil => rfl
  | cons p ps => exact h p (by simp [hs])

theorem NoReset.mono {m n : Nat} {s : State} (h : NoReset n s) (hmn : m ≤ n) : NoReset m s := fun p hp =>
  h p ((List.take_subset_take_left s.hostIn hmn) hp)

/-- Only the pins matter. -/
theorem NoReset.congr {n : Nat} {s t : State} (h : NoReset n s) (e : t.hostIn = s.hostIn) : NoReset n t := by
  unfold NoReset
  rw [e]
  exact h

theorem NoReset.drop {m n : Nat} {s t : State} (h : NoReset (m + n) s) (e : t.hostIn = s.hostIn.drop m) :
    NoReset n t := by
  intro p hp
  rw [e] at hp
  apply h p
  rw [List.take_add]
  exact List.mem_append_right _ hp

@[simp] theorem dropInputs_zero (s : State) : dropInputs 0 s = s := rfl

theorem dropInputs_succ (n : Nat) (s : State) : dropInputs (n + 1) s = dropInputs n (nextInput s) := by
  simp [dropInputs, nextInput]

theorem dropInputs_dropInputs (m n : Nat) (s : State) : dropInputs m (dropInputs n s) = dropInputs (n + m) s := by
  simp [dropInputs, List.drop_drop]

/-! ### The environment's answers -/

@[simp] theorem Env.levels_zero (e : Env) : Env.levels 0 e = [] := by rw [Env.levels]

@[simp] theorem Env.skip_zero (e : Env) : Env.skip 0 e = e := by rw [Env.skip]

theorem Env.levels_succ (n : Nat) (e : Env) : Env.levels (n + 1) e = e.next.1 :: Env.levels n e.next.2 := by
  rw [Env.levels]

theorem Env.skip_succ (n : Nat) (e : Env) : Env.skip (n + 1) e = Env.skip n e.next.2 := by rw [Env.skip]

@[simp] theorem Env.length_levels (n : Nat) (e : Env) : (Env.levels n e).length = n := by
  induction n generalizing e with
  | zero => rfl
  | succ n ih => simp [Env.levels, ih]

/-- Answers come one after the other. -/
theorem Env.skip_add (m n : Nat) (e : Env) : Env.skip (m + n) e = Env.skip n (Env.skip m e) := by
  induction m generalizing e with
  | zero => simp
  | succ m ih => rw [Nat.add_right_comm, Env.skip, ih, Env.skip]

theorem Env.levels_add (m n : Nat) (e : Env) :
    Env.levels (m + n) e = Env.levels m e ++ Env.levels n (Env.skip m e) := by
  induction m generalizing e with
  | zero => simp
  | succ m ih => rw [Nat.add_right_comm, Env.levels, ih, Env.levels, Env.skip, List.cons_append]

/-- Reading one more register after `k` (43_device_ops.md R121). -/
theorem Env.afterReads_succ (k : Nat) (e : Env) : Env.afterReads (k + 1) e = (Env.afterReads k e).skip 16 := by
  induction k generalizing e with
  | zero => rfl
  | succ k ih => rw [Env.afterReads, ih, Env.afterReads]

/-- Scripted answers come first, in order. -/
theorem Env.next_answers (b : Level) (bs : List Level) (h : Option Level) (k : Nat) :
    Env.next ⟨b :: bs, h, k⟩ = (b, ⟨bs, h, k⟩) := rfl

/-- A held line answers its level for ever. -/
theorem Env.next_held (b : Level) (k : Nat) : Env.next ⟨[], some b, k⟩ = (b, ⟨[], some b, k⟩) := rfl

theorem Env.skip_held (b : Level) (k n : Nat) : Env.skip n ⟨[], some b, k⟩ = ⟨[], some b, k⟩ := by
  induction n with
  | zero => simp
  | succ n ih => rw [Env.skip_succ, Env.next_held, ih]

theorem Env.levels_held (b : Level) (k n : Nat) : Env.levels n ⟨[], some b, k⟩ = List.replicate n b := by
  induction n with
  | zero => rfl
  | succ n ih => rw [Env.levels_succ, Env.next_held, ih, List.replicate_succ]

/-- A held line reads as the same word every time (20_memory.md R46: a floating bus is one such environment). -/
theorem Env.word_held (b : Level) (k j : Nat) :
    Env.word j ⟨[], some b, k⟩ = sampledWord (List.replicate 16 b) := by
  have h : Env.afterReads j ⟨[], some b, k⟩ = ⟨[], some b, k⟩ := by
    induction j with
    | zero => rfl
    | succ j ih => rw [Env.afterReads, Env.skip_held, ih]
  rw [Env.word, h, Env.levels_held]

/-- With nothing known, each answer is a fresh free value (20_memory.md R46). -/
theorem Env.next_free (k : Nat) : Env.next ⟨[], none, k⟩ = (Config.freeLevel k, ⟨[], none, k + 1⟩) := rfl

end Sys2Proof.Machine
end

