-- ==== Sys2Proof/Laws/Engine.lean ====
section
/-! SUPPORT. The engine against the procedures of 40_codec.md: a bit slot of three steps is `EmitBit`, a driven phase is
`EmitField`, and so on. -/

namespace Sys2Proof.Machine

/-! ### The procedures, as record updates -/

theorem emitBit_eq (b : Level) (s : State) :
    emitBit b s = { s with trace := s.trace ++ bitEvents b, mdcO := false, mdioO := b } := by
  simp [emitBit, wrMdc, wrMdio, emit, bitEvents]

theorem clockPulse_eq (s : State) :
    clockPulse s = { s with trace := s.trace ++ pulseEvents, mdcO := false } := by
  simp [clockPulse, wrMdc, emit, pulseEvents]

theorem sampleInto_eq (s : State) :
    sampleInto s =
      { s with
        trace := s.trace ++ sampleEvents s.env.next.1, mdcO := false, env := s.env.next.2,
        shr := shiftIn s.shr s.env.next.1 } := by
  simp [sampleInto, sampleBit, shiftShr, wrMdc, rdMdio, emit, sampleEvents]

/-- What `EmitField` does (40_codec.md R83): its events; the clock low; the last bit sent left on the data line. -/
theorem emitField_eq (f n : Nat) (s : State) :
    emitField f (n + 1) s =
      { s with trace := s.trace ++ fieldEvents f (n + 1), mdcO := false, mdioO := f.testBit 0 } := by
  induction n generalizing s with
  | zero => simp [emitField, fieldEvents, emitBit_eq]
  | succ n ih =>
    rw [emitField, ih, emitBit_eq]
    simp [fieldEvents]

/-! ### The engine's step is a row of the table -/

/-- The unused data of a read transaction changes nothing (40_codec.md R88: "unused when `rw = 1`"). -/
theorem frameStep_memRead {x : Transaction} (h : x.read = true) (d : Addr5) (s : State) :
    frameStep d (memRead x.reg) s = frameStep d x s := by
  obtain ⟨rd, r, v⟩ := x
  cases h
  cases hp : s.seq.ph <;> simp [frameStep, slotOf, memRead, hp]

/-- In a busy block with no reset, a step is one row of the table for the current transaction. -/
theorem step_busy {s : State} {x : Transaction} (hb : s.busy = true) (hr : (hostPins s).rst = false)
    (hx : currentTransaction s = some x) : step s = frameStep s.aDev x (nextInput s) := by
  rw [step_engine hr hb (currentFrame_of_transaction hx)]
  cases h : x.read with
  | true =>
    rw [← frameStep_memRead h]
    simp [exec, execFrameRead, hb]
  | false =>
    obtain ⟨rd, r, v⟩ := x
    cases h
    simp [exec, execFrameWrite, hb, memWrite]

/-- The current transaction depends on the configuration, the latches and `XACT` alone. -/
theorem currentTransaction_congr {s t : State} (hc : t.cfg = s.cfg) (h0 : t.aOp = s.aOp) (h2 : t.aReg = s.aReg)
    (h3 : t.aVal = s.aVal) (h5 : t.seq.xact = s.seq.xact) : currentTransaction t = currentTransaction s := by
  simp only [currentTransaction, xactRdreg, xactWrreg, xactRdexp, xactWrexp, xactChkdev, xactRstdev, xactLink,
    regadOf, selectWrite, deselectWrite, selectValue, hc, h0, h2, h3, h5]

/-! ### One step of a busy block, row by row of the table of 40_codec.md R88 -/

theorem step_driven_data {s : State} {x : Transaction} {f : Field} {ph : Phase} {n c : Nat} (hb : s.busy = true)
    (hx : currentTransaction s = some x) (hs : slotOf s.cfg s.aDev x s.seq.ph = .driven f ph n)
    (hsub : s.seq.sub = .data) (hc : s.seq.cnt = c + 1) (hr : (hostPins s).rst = false) :
    step s = .next (setSub .rise (wrMdio (f.value.testBit c) (nextInput s))) := by
  rw [step_busy hb hr hx]
  simp [frameStep, drivenStep, hs, hsub, hc]

theorem step_driven_rise {s : State} {x : Transaction} {f : Field} {ph : Phase} {n : Nat} (hb : s.busy = true)
    (hx : currentTransaction s = some x) (hs : slotOf s.cfg s.aDev x s.seq.ph = .driven f ph n)
    (hsub : s.seq.sub = .rise) (hr : (hostPins s).rst = false) :
    step s = .next (setSub .fall (wrMdc true (nextInput s))) := by
  rw [step_busy hb hr hx]
  simp [frameStep, drivenStep, hs, hsub]

theorem step_driven_fall {s : State} {x : Transaction} {f : Field} {ph : Phase} {n c : Nat} (hb : s.busy = true)
    (hx : currentTransaction s = some x) (hs : slotOf s.cfg s.aDev x s.seq.ph = .driven f ph n)
    (hsub : s.seq.sub = .fall) (hc : s.seq.cnt = c + 1) (hr : (hostPins s).rst = false) :
    step s = .next
      (if c = 0 then enter ph n .data (wrMdc false (nextInput s))
        else enter s.seq.ph c .data (wrMdc false (nextInput s))) := by
  rw [step_busy hb hr hx]
  cases c <;> simp [frameStep, drivenStep, hs, hsub, hc, nextSlot]

theorem step_turnaround_rise {s : State} {x : Transaction} (hb : s.busy = true) (hx : currentTransaction s = some x)
    (hs : slotOf s.cfg s.aDev x s.seq.ph = .turnaround) (hsub : s.seq.sub = .rise)
    (hr : (hostPins s).rst = false) : step s = .next (setSub .fall (wrMdc true (nextInput s))) := by
  rw [step_busy hb hr hx]
  simp [frameStep, turnaroundStep, hs, hsub]

theorem step_turnaround_fall {s : State} {x : Transaction} {c : Nat} (hb : s.busy = true)
    (hx : currentTransaction s = some x) (hs : slotOf s.cfg s.aDev x s.seq.ph = .turnaround)
    (hsub : s.seq.sub = .fall) (hc : s.seq.cnt = c + 1) (hr : (hostPins s).rst = false) :
    step s = .next
      (if c = 0 then enter .data 16 .data (wrMdc false (nextInput s))
        else enter s.seq.ph c .rise (wrMdc false (nextInput s))) := by
  rw [step_busy hb hr hx]
  cases c <;> simp [frameStep, turnaroundStep, hs, hsub, hc, nextSlot]

theorem step_sample_data {s : State} {x : Transaction} (hb : s.busy = true) (hx : currentTransaction s = some x)
    (hs : slotOf s.cfg s.aDev x s.seq.ph = .sample) (hsub : s.seq.sub = .data) (hr : (hostPins s).rst = false) :
    step s = .next (setSub .rise (shiftShr (rdMdio (nextInput s)).1 (rdMdio (nextInput s)).2)) := by
  rw [step_busy hb hr hx]
  simp [frameStep, sampleStep, hs, hsub]

theorem step_sample_rise {s : State} {x : Transaction} (hb : s.busy = true) (hx : currentTransaction s = some x)
    (hs : slotOf s.cfg s.aDev x s.seq.ph = .sample) (hsub : s.seq.sub = .rise) (hr : (hostPins s).rst = false) :
    step s = .next (setSub .fall (wrMdc true (nextInput s))) := by
  rw [step_busy hb hr hx]
  simp [frameStep, sampleStep, hs, hsub]

theorem step_sample_fall {s : State} {x : Transaction} {c : Nat} (hb : s.busy = true)
    (hx : currentTransaction s = some x) (hs : slotOf s.cfg s.aDev x s.seq.ph = .sample)
    (hsub : s.seq.sub = .fall) (hc : s.seq.cnt = c + 1) (hr : (hostPins s).rst = false) :
    step s =
      if c = 0 then endOfTransaction (wrMdc false (nextInput s))
      else .next (enter s.seq.ph c .data (wrMdc false (nextInput s))) := by
  rw [step_busy hb hr hx]
  cases c <;> simp [frameStep, sampleStep, hs, hsub, hc, nextSlot]

/-! ### Bit slots and phases -/

/-- A state that differs from `s` in what a slot touches only stands in the same transaction. -/
theorem currentTransaction_moved {s t : State} {x : Transaction} (hx : currentTransaction s = some x)
    (hc : t.cfg = s.cfg) (h0 : t.aOp = s.aOp) (h2 : t.aReg = s.aReg) (h3 : t.aVal = s.aVal)
    (h5 : t.seq.xact = s.seq.xact) : currentTransaction t = some x :=
  (currentTransaction_congr hc h0 h2 h3 h5).trans hx

theorem tail_tail {α : Type} (l : List α) : l.tail.tail = l.drop 2 := by
  rcases l with _ | ⟨_, _ | _⟩ <;> rfl

theorem tail_tail_tail {α : Type} (l : List α) : l.tail.tail.tail = l.drop 3 := by
  rcases l with _ | ⟨_, _ | ⟨_, _ | _⟩⟩ <;> rfl

/-- A driven slot is three steps (40_codec.md R80, R88). -/
theorem driven_slot {s : State} {x : Transaction} {f : Field} {ph : Phase} {n c : Nat} (hb : s.busy = true)
    (hx : currentTransaction s = some x) (hs : slotOf s.cfg s.aDev x s.seq.ph = .driven f ph n)
    (hsub : s.seq.sub = .data) (hc : s.seq.cnt = c + 1) (hr : NoReset 3 s) :
    run 3 s = .next (dropInputs 3
      (if c = 0 then enter ph n .data (emitBit (f.value.testBit c) s)
        else enter s.seq.ph c .data (emitBit (f.value.testBit c) s))) := by
  have e1 := step_driven_data hb hx hs hsub hc hr.head
  have e2 := step_driven_rise (s := setSub .rise (wrMdio (f.value.testBit c) (nextInput s))) (x := x) (f := f)
    (ph := ph) (n := n) (by simp [setSub, hb]) (currentTransaction_moved hx (by simp [setSub]) (by simp [setSub])
    (by simp [setSub]) (by simp [setSub]) (by simp [setSub])) (by simpa [setSub] using hs) (by simp [setSub])
    (NoReset.head (n := 1) (NoReset.drop (m := 1) hr (by simp [setSub])))
  have e3 := step_driven_fall (c := c)
    (s := setSub .fall (wrMdc true (nextInput (setSub .rise (wrMdio (f.value.testBit c) (nextInput s)))))) (x := x)
    (f := f) (ph := ph) (n := n) (by simp [setSub, hb]) (currentTransaction_moved hx (by simp [setSub])
    (by simp [setSub]) (by simp [setSub]) (by simp [setSub]) (by simp [setSub])) (by simpa [setSub] using hs)
    (by simp [setSub]) (by simpa [setSub] using hc)
    (NoReset.head (n := 0) (NoReset.drop (m := 2) hr (by simp [setSub, tail_tail])))
  rw [run_succ e1, run_succ e2, run_succ e3, run_zero]
  cases c <;>
    simp [setSub, enter, wrMdc, wrMdio, emit, nextInput, dropInputs, emitBit, tail_tail_tail]

/-- A driven phase is `EmitField` (40_codec.md R83, R88). -/
theorem driven_phase {s : State} {x : Transaction} {f : Field} {ph : Phase} {n c : Nat} (hb : s.busy = true)
    (hx : currentTransaction s = some x) (hs : slotOf s.cfg s.aDev x s.seq.ph = .driven f ph n)
    (hsub : s.seq.sub = .data) (hc : s.seq.cnt = c + 1) (hr : NoReset (3 * (c + 1)) s) :
    run (3 * (c + 1)) s =
      .next (dropInputs (3 * (c + 1)) (enter ph n .data (emitField f.value (c + 1) s))) := by
  induction c generalizing s with
  | zero => simpa [emitField] using driven_slot hb hx hs hsub hc hr
  | succ c ih =>
    have e := driven_slot hb hx hs hsub hc (hr.mono (by omega))
    rw [if_neg (by omega)] at e
    have e2 := ih (s := dropInputs 3 (enter s.seq.ph (c + 1) .data (emitBit (f.value.testBit (c + 1)) s)))
      (by simp [emitBit, hb])
      (currentTransaction_moved hx (by simp [emitBit]) (by simp [emitBit]) (by simp [emitBit]) (by simp [emitBit])
        (by simp [emitBit]))
      (by simpa [emitBit] using hs) (by simp) (by simp)
      (NoReset.drop (m := 3) (hr.mono (by omega)) (by simp [emitBit]))
    rw [show 3 * (c + 1 + 1) = 3 + 3 * (c + 1) by omega, run_add e, e2, emitField_eq, emitField_eq, emitBit_eq]
    simp [enter, dropInputs, fieldEvents]

/-- A turnaround slot is two steps, `ClockPulse` (40_codec.md R81, R88). -/
theorem turnaround_slot {s : State} {x : Transaction} {c : Nat} (hb : s.busy = true)
    (hx : currentTransaction s = some x) (hs : slotOf s.cfg s.aDev x s.seq.ph = .turnaround)
    (hsub : s.seq.sub = .rise) (hc : s.seq.cnt = c + 1) (hr : NoReset 2 s) :
    run 2 s = .next (dropInputs 2
      (if c = 0 then enter .data 16 .data (clockPulse s) else enter s.seq.ph c .rise (clockPulse s))) := by
  have e1 := step_turnaround_rise hb hx hs hsub hr.head
  have e2 := step_turnaround_fall (c := c) (s := setSub .fall (wrMdc true (nextInput s))) (x := x) (by simp [setSub, hb])
    (currentTransaction_moved hx (by simp [setSub]) (by simp [setSub]) (by simp [setSub]) (by simp [setSub])
      (by simp [setSub])) (by simpa [setSub] using hs) (by simp [setSub]) (by simpa [setSub] using hc)
    (NoReset.head (n := 0) (NoReset.drop (m := 1) hr (by simp [setSub])))
  rw [run_succ e1, run_succ e2, run_zero]
  cases c <;> simp [setSub, enter, wrMdc, emit, nextInput, dropInputs, clockPulse, tail_tail]

/-- The turnaround window of a read frame is its clock pulses (40_codec.md R86, R88). -/
theorem turnaround_phase {s : State} {x : Transaction} {c : Nat} (hb : s.busy = true)
    (hx : currentTransaction s = some x) (hs : slotOf s.cfg s.aDev x s.seq.ph = .turnaround)
    (hsub : s.seq.sub = .rise) (hc : s.seq.cnt = c + 1) (hr : NoReset (2 * (c + 1)) s) :
    run (2 * (c + 1)) s =
      .next (dropInputs (2 * (c + 1)) (enter .data 16 .data (repeatOp clockPulse (c + 1) s))) := by
  induction c generalizing s with
  | zero => simpa [repeatOp] using turnaround_slot hb hx hs hsub hc hr
  | succ c ih =>
    have e := turnaround_slot hb hx hs hsub hc (hr.mono (by omega))
    rw [if_neg (by omega)] at e
    have e2 := ih (s := dropInputs 2 (enter s.seq.ph (c + 1) .rise (clockPulse s)))
      (by simp [clockPulse, hb])
      (currentTransaction_moved hx (by simp [clockPulse]) (by simp [clockPulse]) (by simp [clockPulse])
        (by simp [clockPulse]) (by simp [clockPulse]))
      (by simpa [clockPulse] using hs) (by simp) (by simp)
      (NoReset.drop (m := 2) (hr.mono (by omega)) (by simp [clockPulse]))
    rw [show 2 * (c + 1 + 1) = 2 + 2 * (c + 1) by omega, run_add e, e2]
    have comm : ∀ (k : Nat) (ph : Phase) (n : Nat) (sub : Sub) (t : State),
        repeatOp clockPulse k (dropInputs 2 (enter ph n sub t)) =
          dropInputs 2 (enter ph n sub (repeatOp clockPulse k t)) := by
      intro k
      induction k with
      | zero => intros; rfl
      | succ k ihk =>
        intro ph n sub t
        rw [repeatOp, repeatOp, ← ihk]
        congr 1
    rw [comm]
    simp [repeatOp, enter, dropInputs]

/-- A sample slot but the last is three steps, one turn of the sampling loop (40_codec.md R82, R87, R88). -/
theorem sample_slot {s : State} {x : Transaction} {c : Nat} (hb : s.busy = true)
    (hx : currentTransaction s = some x) (hs : slotOf s.cfg s.aDev x s.seq.ph = .sample)
    (hsub : s.seq.sub = .data) (hc : s.seq.cnt = c + 1) (hr : NoReset 3 s) :
    run 3 s =
      if c = 0 then endOfTransaction (dropInputs 3 (setSub .fall (sampleInto s)))
      else .next (dropInputs 3 (enter s.seq.ph c .data (sampleInto s))) := by
  have e1 := step_sample_data hb hx hs hsub hr.head
  have e2 := step_sample_rise (s := setSub .rise (shiftShr (rdMdio (nextInput s)).1 (rdMdio (nextInput s)).2)) (x := x)
    (by simp [setSub, hb]) (currentTransaction_moved hx (by simp [setSub]) (by simp [setSub]) (by simp [setSub])
    (by simp [setSub]) (by simp [setSub])) (by simpa [setSub] using hs) (by simp [setSub])
    (NoReset.head (n := 1) (NoReset.drop (m := 1) hr (by simp [setSub])))
  have e3 := step_sample_fall (c := c)
    (s := setSub .fall (wrMdc true (nextInput
      (setSub .rise (shiftShr (rdMdio (nextInput s)).1 (rdMdio (nextInput s)).2))))) (x := x)
    (by simp [setSub, hb]) (currentTransaction_moved hx (by simp [setSub]) (by simp [setSub]) (by simp [setSub])
    (by simp [setSub]) (by simp [setSub])) (by simpa [setSub] using hs) (by simp [setSub])
    (by simpa [setSub] using hc) (NoReset.head (n := 0) (NoReset.drop (m := 2) hr (by simp [setSub, tail_tail])))
  rw [run_succ e1, run_succ e2]
  simp only [run, e3, sampleInto_eq]
  cases c with
  | zero =>
    have e : wrMdc false (nextInput (setSub .fall (wrMdc true (nextInput
        (setSub .rise (shiftShr (rdMdio (nextInput s)).1 (rdMdio (nextInput s)).2)))))) =
        dropInputs 3 (setSub .fall (sampleInto s)) := by
      rw [sampleInto_eq]
      simp [setSub, enter, wrMdc, rdMdio, shiftShr, emit, nextInput, dropInputs, sampleEvents, tail_tail_tail]
    simp only [↓reduceIte, e, sampleInto_eq]
    cases endOfTransaction _ <;> rfl
  | succ c =>
    simp [setSub, enter, wrMdc, rdMdio, shiftShr, emit, nextInput, dropInputs, sampleEvents, tail_tail_tail]

end Sys2Proof.Machine
end

