-- ==== Sys2Proof/Laws/Ops.lean ====
section
/-! SUPPORT. What each shared operation does, said once: the configuration's bounds, the flag computations, the accept
step, completion and error. -/

namespace Sys2Proof.Machine

/-! ### The bounds a well-formed configuration keeps (00_scope.md R5) -/

theorem preambleLen_ge (c : Config) : 32 ≤ c.preambleLen := by
  have h := c.wf
  simp only [ConfigRecord.wellFormed, Bool.and_eq_true, decide_eq_true_eq] at h
  exact h.1.1.1.1.1.1.1.1.1.1.1.1.1.1.1

theorem taRdClocks_ge (c : Config) : 1 ≤ c.taRdClocks := by
  have h := c.wf
  simp only [ConfigRecord.wellFormed, Bool.and_eq_true, decide_eq_true_eq] at h
  exact h.1.1.1.1.1.1.1.1.1.1.1.1.1.1.2

theorem argw_ge (c : Config) : 17 ≤ c.argw := by
  have h := c.wf
  simp only [ConfigRecord.wellFormed, Bool.and_eq_true, decide_eq_true_eq] at h
  exact h.1.1.1.1.1.1.1.1.1.1.1.1.1.2

theorem resetPollLimit_ge {c : Config} {k : Nat} (hk : c.resetPollLimit = some k) : 1 ≤ k := by
  have h := c.wf
  simp only [ConfigRecord.wellFormed, Bool.and_eq_true] at h
  have hl := h.2
  rw [show c.record.resetPollLimit = some k from hk] at hl
  simpa [ConfigRecord.limitWellFormed] using hl

/-! ### Flags (30_encoding.md R72) -/

theorem maskTest_true {v m : Word16} (h : v &&& m ≠ 0) : maskTest v m = true := decide_eq_true h

theorem maskTest_false {v m : Word16} (h : v &&& m = 0) : maskTest v m = false := decide_eq_false (not_not.mpr h)

theorem boolResult_true : boolResult true = 1 := rfl

theorem boolResult_false : boolResult false = 0 := rfl

/-- The accumulation step, as arithmetic: twice the value, the new bit added, 16 bits kept (30_encoding.md R72). -/
theorem shiftIn_toNat (w : Word16) (b : Level) : (shiftIn w b).toNat = (2 * w.toNat + b.toNat) % 65536 := by
  have hw : (w <<< 1).toNat = 2 * w.toNat % 65536 := by
    rw [BitVec.toNat_shiftLeft, Nat.shiftLeft_eq]
    omega
  cases b
  · have e : shiftIn w false = w <<< 1 := by simp [shiftIn]
    rw [e, hw]
    simp
  · have e : shiftIn w true = (w <<< 1) + 1#16 := by
      unfold shiftIn
      rw [if_pos rfl]
      symm
      apply BitVec.add_eq_or_of_and_eq_zero
      apply BitVec.eq_of_getLsbD_eq
      intro i hi
      rw [BitVec.getLsbD_and, BitVec.getLsbD_shiftLeft, BitVec.getLsbD_one]
      cases i <;> simp
    rw [e, BitVec.toNat_add, hw]
    simp

/-! ### The accept step (10_state.md R24, 60_exceptions.md R140) -/

theorem accept_busy {s : State} (h : s.busy = true) (op : BitVec 3) (b : Bool) (a : CmdOperands) :
    accept op b a s = s := by
  simp [accept, h]

theorem accept_invalid {s : State} (h : s.busy = false) (op : BitVec 3) (a : CmdOperands) :
    accept op true a s = rejected s := by
  simp [accept, h, raise, clearDone, rejected]

theorem accept_valid {s : State} (h : s.busy = false) (op : BitVec 3) (a : CmdOperands) :
    accept op false a s = beginCommand (latch op a (clearDone s)) := by
  simp [accept, h]

/-- Every command's meaning is an accept step, so it answers a next state in every state. -/
theorem exec_command (op : BitVec 3) (a : CmdOperands) (s : State) :
    ∃ b, exec (commandOf op a) s = .next (accept op b a s) := by
  have h : op = 0 ∨ op = 1 ∨ op = 2 ∨ op = 3 ∨ op = 4 ∨ op = 5 ∨ op = 6 ∨ op = 7 := by
    revert op
    decide
  rcases h with rfl | rfl | rfl | rfl | rfl | rfl | rfl | rfl <;> exact ⟨_, rfl⟩

/-! ### The end-of-transaction logic of the command in `A_OP` (40_codec.md R88) -/

theorem commandEnd_rdreg {s : State} (h : s.aOp = 0) : commandEnd s = endRdreg s := by simp [commandEnd, h]
theorem commandEnd_wrreg {s : State} (h : s.aOp = 1) : commandEnd s = endWrreg s := by simp [commandEnd, h]
theorem commandEnd_rdexp {s : State} (h : s.aOp = 2) : commandEnd s = endRdexp s := by simp [commandEnd, h]
theorem commandEnd_wrexp {s : State} (h : s.aOp = 3) : commandEnd s = endWrexp s := by simp [commandEnd, h]
theorem commandEnd_chkdev {s : State} (h : s.aOp = 4) : commandEnd s = endChkdev s := by simp [commandEnd, h]
theorem commandEnd_rstdev {s : State} (h : s.aOp = 5) : commandEnd s = endRstdev s := by simp [commandEnd, h]
theorem commandEnd_link {s : State} (h : s.aOp = 6) : commandEnd s = endLink s := by simp [commandEnd, h]

end Sys2Proof.Machine
end

