-- ==== Sys2Proof/Laws/Rows.lean ====
section
/-! SUPPORT. What a row of the step table of 40_codec.md R88, and what the end of a transaction, can do: said once, for
the proofs over every step. -/

namespace Sys2Proof.Machine

/-! ### The end of a transaction -/

theorem endOfTransaction_some {s : State} {x : Transaction} (hx : currentTransaction s = some x) :
    endOfTransaction s = .next (commandEnd s) := by
  simp [endOfTransaction, hx]

theorem endOfTransaction_next {s t : State} (h : endOfTransaction s = .next t) :
    (∃ x, currentTransaction s = some x) ∧ t = commandEnd s := by
  unfold endOfTransaction at h
  split at h
  · rename_i h1
    exact ⟨Option.isSome_iff_exists.mp h1, (Host.Outcome.next.inj h).symm⟩
  · cases h

/-- Everything the end of a transaction can do (41_direct_access.md to 43_device_ops.md): start the next frame, complete,
or time out. `u` is the state with the register that the command's logic writes in the same step. -/
theorem commandEnd_cases {s : State} {x : Transaction} (hx : currentTransaction s = some x) :
    (∃ k u, commandEnd s = startFrame k u ∧ (currentTransaction (startFrame k u)).isSome = true ∧
      (u = s ∨ (u = setM1 s ∧ s.aOp = 4) ∨ (u = countPoll s ∧ s.aOp = 5 ∧ s.cfg.resetPollLimit ≠ some (s.polls + 1)))) ∨
    (∃ v u, commandEnd s = complete v u ∧ (u = s ∨ (u = setM1 s ∧ s.aOp = 4) ∨ (u = countPoll s ∧ s.aOp = 5))) ∨
    (commandEnd s = finish (raise .timeout (countPoll s)) ∧ s.aOp = 5 ∧
      s.cfg.resetPollLimit = some (s.polls + 1)) := by
  unfold currentTransaction at hx
  split at hx
  · next h => exact .inr (.inl ⟨s.shr, s, by simp [commandEnd, h, endRdreg], .inl rfl⟩)
  · next h => exact .inr (.inl ⟨0, s, by simp [commandEnd, h, endWrreg], .inl rfl⟩)
  · next h =>
    rcases hk : s.seq.xact with ⟨_ | _ | _ | k, hlt⟩
    · exact .inl ⟨1, s, by simp [commandEnd, h, endRdexp, hk], by simp [currentTransaction, h, xactRdexp], .inl rfl⟩
    · exact .inl ⟨2, s, by simp [commandEnd, h, endRdexp, hk], by simp [currentTransaction, h, xactRdexp], .inl rfl⟩
    · exact .inr (.inl ⟨_, s, by simp only [commandEnd, h, endRdexp, hk]; rfl, .inl rfl⟩)
    · omega
  · next h =>
    rcases hk : s.seq.xact with ⟨_ | _ | _ | k, hlt⟩
    · exact .inl ⟨1, s, by simp [commandEnd, h, endWrexp, hk], by simp [currentTransaction, h, xactWrexp], .inl rfl⟩
    · exact .inl ⟨2, s, by simp [commandEnd, h, endWrexp, hk], by simp [currentTransaction, h, xactWrexp], .inl rfl⟩
    · exact .inr (.inl ⟨_, s, by simp only [commandEnd, h, endWrexp, hk]; rfl, .inl rfl⟩)
    · omega
  · next h =>
    have h4 : s.aOp = 4 := BitVec.eq_of_toNat_eq h
    rcases hk : s.seq.xact with ⟨_ | _ | _ | k, hlt⟩
    · by_cases hc : (!idHighMatches s && s.cfg.idShortCircuit) = true
      · exact .inr (.inl ⟨boolResult false, setM1 s, by simp only [commandEnd, h, endChkdev, hk, hc]; rfl,
          .inr (.inl ⟨rfl, h4⟩)⟩)
      · exact .inl ⟨1, setM1 s, by simp only [commandEnd, h, endChkdev, hk, hc]; rfl,
          by simp [currentTransaction, h, xactChkdev], .inr (.inl ⟨rfl, h4⟩)⟩
    · exact .inr (.inl ⟨_, s, by simp only [commandEnd, h, endChkdev, hk]; rfl, .inl rfl⟩)
    · rw [xactChkdev, hk] at hx
      cases hx
    · omega
  · next h =>
    have h5 : s.aOp = 5 := BitVec.eq_of_toNat_eq h
    rcases hk : s.seq.xact with ⟨_ | _ | _ | k, hlt⟩
    · exact .inl ⟨1, s, by simp only [commandEnd, h, endRstdev, hk],
        by simp [currentTransaction, h, xactRstdev], .inl rfl⟩
    · have e : commandEnd s = endPoll (countPoll s) := by simp only [commandEnd, h, endRstdev, hk]
      rw [e, endPoll]
      by_cases hb : resetBit (countPoll s) = true
      · by_cases hl : s.cfg.resetPollLimit = some (s.polls + 1)
        · exact .inr (.inr ⟨by simp [hb, pollLimitReached, hl], h5, hl⟩)
        · exact .inl ⟨1, countPoll s, by simp [hb, pollLimitReached, hl],
            by simp [currentTransaction, h, xactRstdev], .inr (.inr ⟨rfl, h5, hl⟩)⟩
      · exact .inr (.inl ⟨0, countPoll s, by simp [hb], .inr (.inr ⟨rfl, h5⟩)⟩)
    · rw [xactRstdev, hk] at hx
      cases hx
    · omega
  · next h =>
    rcases hk : s.seq.xact with ⟨_ | _ | _ | k, hlt⟩
    · by_cases hc : linkBit s = true
      · exact .inr (.inl ⟨_, s, by simp only [commandEnd, h, endLink, hk, hc]; rfl, .inl rfl⟩)
      · exact .inl ⟨1, s, by simp only [commandEnd, h, endLink, hk, hc]; rfl,
          by simp [currentTransaction, h, xactLink], .inl rfl⟩
    · exact .inr (.inl ⟨_, s, by simp only [commandEnd, h, endLink, hk]; rfl, .inl rfl⟩)
    · rw [xactLink, hk] at hx
      cases hx
    · omega
  · cases hx

/-! ### The rows -/

/-- Everything a row of the table can do (40_codec.md R88). -/
theorem frameStep_cases {d : Addr5} {x : Transaction} {s t : State} (h : frameStep d x s = .next t) :
    (s.seq.ph = .start ∧ s.seq.sub = .data ∧ t = enter .pre s.cfg.preambleLen .data (dirOutput s)) ∨
    (∃ f ph n, slotOf s.cfg d x s.seq.ph = .driven f ph n ∧
      ((s.seq.sub = .data ∧ 1 ≤ s.seq.cnt ∧ t = setSub .rise (wrMdio (f.value.testBit (s.seq.cnt - 1)) s)) ∨
       (s.seq.sub = .rise ∧ t = setSub .fall (wrMdc true s)) ∨
       (s.seq.sub = .fall ∧ 1 < s.seq.cnt ∧ t = nextSlot .data (wrMdc false s)) ∨
       (s.seq.sub = .fall ∧ s.seq.cnt ≤ 1 ∧ t = enter ph n .data (wrMdc false s)))) ∨
    (s.seq.ph = .rel ∧ s.seq.sub = .data ∧
      ((x.read = true ∧ t = enter .ta s.cfg.taRdClocks .rise (clearShr (dirInput s))) ∨
       (x.read = false ∧ (∃ y, currentTransaction (dirInput s) = some y) ∧ t = commandEnd (dirInput s)))) ∨
    (slotOf s.cfg d x s.seq.ph = .turnaround ∧
      ((s.seq.sub = .rise ∧ t = setSub .fall (wrMdc true s)) ∨
       (s.seq.sub = .fall ∧ 1 < s.seq.cnt ∧ t = nextSlot .rise (wrMdc false s)) ∨
       (s.seq.sub = .fall ∧ s.seq.cnt ≤ 1 ∧ t = enter .data 16 .data (wrMdc false s)))) ∨
    (slotOf s.cfg d x s.seq.ph = .sample ∧
      ((s.seq.sub = .data ∧ t = setSub .rise (shiftShr (rdMdio s).1 (rdMdio s).2)) ∨
       (s.seq.sub = .rise ∧ t = setSub .fall (wrMdc true s)) ∨
       (s.seq.sub = .fall ∧ 1 < s.seq.cnt ∧ t = nextSlot .data (wrMdc false s)) ∨
       (s.seq.sub = .fall ∧ s.seq.cnt ≤ 1 ∧ (∃ y, currentTransaction (wrMdc false s) = some y) ∧
         t = commandEnd (wrMdc false s)))) := by
  unfold frameStep at h
  split at h
  · next hs =>
    left
    have hp : s.seq.ph = .start := by
      cases hp : s.seq.ph <;> simp [slotOf, hp] at hs ⊢
      all_goals (split at hs <;> cases hs)
    unfold startStep at h
    split at h
    · next h2 => exact ⟨hp, h2, (Host.Outcome.next.inj h).symm⟩
    · cases h
    · cases h
  · next f ph n hs =>
    refine .inr (.inl ⟨f, ph, n, hs, ?_⟩)
    unfold drivenStep at h
    split at h
    · next h2 =>
      split at h
      · cases h
      · next h3 => exact .inl ⟨h2, by omega, (Host.Outcome.next.inj h).symm⟩
    · next h2 => exact .inr (.inl ⟨h2, (Host.Outcome.next.inj h).symm⟩)
    · next h2 =>
      split at h
      · next h3 => exact .inr (.inr (.inl ⟨h2, h3, (Host.Outcome.next.inj h).symm⟩))
      · next h3 => exact .inr (.inr (.inr ⟨h2, by omega, (Host.Outcome.next.inj h).symm⟩))
  · next hs =>
    have hp : s.seq.ph = .rel := by
      cases hp : s.seq.ph <;> simp [slotOf, hp] at hs ⊢
      all_goals (split at hs <;> cases hs)
    unfold releaseStep at h
    split at h
    · next h2 =>
      split at h
      · next h3 => exact .inr (.inr (.inl ⟨hp, h2, .inl ⟨h3, (Host.Outcome.next.inj h).symm⟩⟩))
      · next h3 => exact .inr (.inr (.inl ⟨hp, h2, .inr ⟨by simpa using h3, endOfTransaction_next h⟩⟩))
    · cases h
    · cases h
  · next hs =>
    refine .inr (.inr (.inr (.inl ⟨hs, ?_⟩)))
    unfold turnaroundStep at h
    split at h
    · cases h
    · next h2 => exact .inl ⟨h2, (Host.Outcome.next.inj h).symm⟩
    · next h2 =>
      split at h
      · next h3 => exact .inr (.inl ⟨h2, h3, (Host.Outcome.next.inj h).symm⟩)
      · next h3 => exact .inr (.inr ⟨h2, by omega, (Host.Outcome.next.inj h).symm⟩)
  · next hs =>
    refine .inr (.inr (.inr (.inr ⟨hs, ?_⟩)))
    unfold sampleStep at h
    split at h
    · next h2 => exact .inl ⟨h2, (Host.Outcome.next.inj h).symm⟩
    · next h2 => exact .inr (.inl ⟨h2, (Host.Outcome.next.inj h).symm⟩)
    · next h2 =>
      split at h
      · next h3 => exact .inr (.inr (.inl ⟨h2, h3, (Host.Outcome.next.inj h).symm⟩))
      · next h3 => exact .inr (.inr (.inr ⟨h2, by omega, endOfTransaction_next h⟩))
  · cases h

/-- The two transactions of one register behave alike but for `rw`: a step of a busy block, by its transaction. -/
theorem step_busy_cases {s t : State} (hb : s.busy = true) (hr : (hostPins s).rst = false) (h : step s = .next t) :
    ∃ x, currentTransaction s = some x ∧ frameStep s.aDev x (nextInput s) = .next t := by
  cases hx : currentTransaction s with
  | none =>
    have : currentFrame s = none := by simp [currentFrame, hx]
    simp [step, work, engineWork, hr, hb, this] at h
  | some x =>
    rw [step_busy hb hr hx] at h
    exact ⟨x, rfl, h⟩

end Sys2Proof.Machine
end

