-- ==== Sys2Proof/Laws/Frames.lean ====
section
/-! SUPPORT. Phases of a frame joined: the sampling loop, the header, the line events of a field. -/

namespace Sys2Proof.Machine

/-! ### The end of a transaction does not read the position inside the frame -/

/-- `PH`, `CNT` and `SUB` do not matter to the end-of-transaction logic: it writes all of `SEQ` (40_codec.md R88). -/
theorem commandEnd_enter {s : State} {x : Transaction} (hx : currentTransaction s = some x) (ph : Phase) (n : Nat)
    (sub : Sub) : commandEnd (enter ph n sub s) = commandEnd s := by
  unfold currentTransaction at hx
  unfold commandEnd
  simp only [enter_aOp]
  split at hx
  · rfl
  · rfl
  · simp only [endRdexp, enter_seq]
    split <;> rfl
  · simp only [endWrexp, enter_seq]
    split <;> rfl
  · simp only [xactChkdev] at hx
    simp only [endChkdev, enter_seq]
    split
    · rfl
    · rfl
    · next h =>
      rw [h] at hx
      cases hx
  · simp only [xactRstdev] at hx
    simp only [endRstdev, enter_seq]
    split
    · rfl
    · rfl
    · next h =>
      rw [h] at hx
      cases hx
  · simp only [xactLink] at hx
    simp only [endLink, enter_seq]
    split
    · rfl
    · rfl
    · next h =>
      rw [h] at hx
      cases hx
  · cases hx

/-! ### The sampling loop (40_codec.md R86, R87) -/

theorem repeat_sampleInto_eq (n : Nat) (s : State) :
    repeatOp sampleInto (n + 1) s =
      { s with
        trace := s.trace ++ ((s.env.levels (n + 1)).map sampleEvents).flatten, mdcO := false,
        env := s.env.skip (n + 1), shr := (s.env.levels (n + 1)).foldl shiftIn s.shr } := by
  induction n generalizing s with
  | zero => simp [repeatOp, sampleInto_eq, Env.levels, Env.skip]
  | succ n ih =>
    rw [repeatOp, ih, sampleInto_eq]
    simp [Env.levels, Env.skip]

/-- The sampling phase is its turns of the loop, then the end-of-transaction logic (40_codec.md R86, R88). -/
theorem sample_phase {s : State} {x : Transaction} {c : Nat} (hb : s.busy = true)
    (hx : currentTransaction s = some x) (hs : slotOf s.cfg s.aDev x s.seq.ph = .sample)
    (hsub : s.seq.sub = .data) (hc : s.seq.cnt = c + 1) (hr : NoReset (3 * (c + 1)) s) :
    run (3 * (c + 1)) s =
      .next (commandEnd (dropInputs (3 * (c + 1)) (repeatOp sampleInto (c + 1) s))) := by
  induction c generalizing s with
  | zero =>
    rw [show 3 * (0 + 1) = 3 from rfl, sample_slot hb hx hs hsub hc hr, if_pos rfl]
    have hx' : currentTransaction (dropInputs 3 (sampleInto s)) = some x :=
      currentTransaction_moved hx (by simp [sampleInto_eq]) (by simp [sampleInto_eq]) (by simp [sampleInto_eq])
        (by simp [sampleInto_eq]) (by simp [sampleInto_eq])
    have e : dropInputs 3 (setSub .fall (sampleInto s)) =
        enter s.seq.ph s.seq.cnt .fall (dropInputs 3 (sampleInto s)) := by
      rw [sampleInto_eq]
      simp [setSub, enter, dropInputs]
    rw [e, endOfTransaction_some (x := x), commandEnd_enter hx']
    · simp [repeatOp]
    · exact currentTransaction_moved hx' (by simp) (by simp) (by simp) (by simp) (by simp)
  | succ c ih =>
    have e := sample_slot hb hx hs hsub hc (hr.mono (by omega))
    rw [if_neg (by omega)] at e
    have e2 := ih (s := dropInputs 3 (enter s.seq.ph (c + 1) .data (sampleInto s)))
      (by simp [sampleInto_eq, hb])
      (currentTransaction_moved hx (by simp [sampleInto_eq]) (by simp [sampleInto_eq]) (by simp [sampleInto_eq])
        (by simp [sampleInto_eq]) (by simp [sampleInto_eq]))
      (by simpa [sampleInto_eq] using hs) (by simp) (by simp)
      (NoReset.drop (m := 3) (hr.mono (by omega)) (by simp [sampleInto_eq]))
    rw [show 3 * (c + 1 + 1) = 3 + 3 * (c + 1) by omega, run_add e, e2]
    have hx' : currentTransaction (dropInputs (3 + 3 * (c + 1)) (repeatOp sampleInto (c + 1 + 1) s)) = some x :=
      currentTransaction_moved hx (by simp [repeat_sampleInto_eq]) (by simp [repeat_sampleInto_eq])
        (by simp [repeat_sampleInto_eq]) (by simp [repeat_sampleInto_eq]) (by simp [repeat_sampleInto_eq])
    rw [← commandEnd_enter hx' s.seq.ph (c + 1) .data]
    have e3 : dropInputs (3 * (c + 1))
        (repeatOp sampleInto (c + 1) (dropInputs 3 (enter s.seq.ph (c + 1) .data (sampleInto s)))) =
        enter s.seq.ph (c + 1) .data (dropInputs (3 + 3 * (c + 1)) (repeatOp sampleInto (c + 1 + 1) s)) := by
      rw [repeat_sampleInto_eq, repeat_sampleInto_eq, sampleInto_eq]
      simp [Env.levels, Env.skip, enter, dropInputs]
    rw [e3]

/-! ### Preamble, turnaround, header -/

theorem decide_odd_eq {n : Nat} (x : BitVec n) : decide (x.toNat % 2 = 1) = x.getLsbD 0 := by
  rw [← Nat.testBit_zero]
  rfl

/-- A field of ones is the preamble's loop (40_codec.md R84, R88). -/
theorem fieldEvents_ones (n f : Nat) (hf : ∀ i < n, f.testBit i = true) :
    fieldEvents f n = (List.replicate n (bitEvents true)).flatten := by
  induction n with
  | zero => rfl
  | succ n ih =>
    rw [fieldEvents, hf n (by omega), ih (fun i hi => hf i (by omega)), List.replicate_succ, List.flatten_cons]

theorem repeat_emitBit_eq (n : Nat) (s : State) :
    repeatOp (emitBit true) (n + 1) s =
      { s with
        trace := s.trace ++ (List.replicate (n + 1) (bitEvents true)).flatten, mdcO := false, mdioO := true } := by
  induction n generalizing s with
  | zero => simp [repeatOp, emitBit_eq]
  | succ n ih =>
    rw [repeatOp, ih, emitBit_eq]
    simp [List.replicate_succ]

theorem repeat_clockPulse_eq (n : Nat) (s : State) (h : s.mdcO = false) :
    repeatOp clockPulse n s =
      { s with trace := s.trace ++ (List.replicate n pulseEvents).flatten, mdcO := false } := by
  induction n generalizing s with
  | zero =>
    obtain ⟨⟩ := s
    simp_all [repeatOp]
  | succ m ih =>
    rw [repeatOp, ih _ (by simp [clockPulse_eq]), clockPulse_eq]
    simp [List.replicate_succ]

/-- A field of at least one bit. -/
theorem emitField_pos_eq (f n : Nat) (hn : 1 ≤ n) (s : State) :
    emitField f n s =
      { s with trace := s.trace ++ fieldEvents f n, mdcO := false, mdioO := f.testBit 0 } := by
  obtain ⟨m, rfl⟩ : ∃ m, n = m + 1 := ⟨n - 1, by omega⟩
  exact emitField_eq f m s

/-- What `EncodeFrame` does (40_codec.md R84): its events; the data line driven, the clock low, `r5[0]` left on the
data line. -/
theorem encodeFrame_eq (op2 : BitVec 2) (d r : Addr5) (s : State) :
    encodeFrame op2 d r s =
      { s with
        mdioOe := true, trace := s.trace ++ headerEvents s.cfg op2 d r, mdcO := false, mdioO := r.getLsbD 0 } := by
  have hP := preambleLen_ge s.cfg
  obtain ⟨m, hm⟩ : ∃ m, s.cfg.preambleLen = m + 1 := ⟨s.cfg.preambleLen - 1, by omega⟩
  unfold encodeFrame
  rw [hm, repeat_emitBit_eq, ← hm, emitField_pos_eq _ 2 (by omega), emitField_pos_eq _ 2 (by omega),
    emitField_pos_eq _ 5 (by omega), emitField_pos_eq _ 5 (by omega)]
  simp [headerEvents, dirOutput, emit, startField, -BitVec.getLsbD_eq_getElem, decide_odd_eq]

/-! ### The three single steps of a frame outside its slots -/

theorem step_start {s : State} {x : Transaction} (hb : s.busy = true) (hx : currentTransaction s = some x)
    (hph : s.seq.ph = .start) (hsub : s.seq.sub = .data) (hr : (hostPins s).rst = false) :
    step s = .next (enter .pre s.cfg.preambleLen .data (dirOutput (nextInput s))) := by
  rw [step_busy hb hr hx]
  simp [frameStep, slotOf, hph, startStep, hsub]

theorem step_release_write {s : State} {x : Transaction} (hb : s.busy = true) (hx : currentTransaction s = some x)
    (hph : s.seq.ph = .rel) (hsub : s.seq.sub = .data) (hrd : x.read = false) (hr : (hostPins s).rst = false) :
    step s = endOfTransaction (dirInput (nextInput s)) := by
  rw [step_busy hb hr hx]
  simp [frameStep, slotOf, hph, releaseStep, hsub, hrd]

theorem step_release_read {s : State} {x : Transaction} (hb : s.busy = true) (hx : currentTransaction s = some x)
    (hph : s.seq.ph = .rel) (hsub : s.seq.sub = .data) (hrd : x.read = true) (hr : (hostPins s).rst = false) :
    step s = .next (enter .ta s.cfg.taRdClocks .rise (clearShr (dirInput (nextInput s)))) := by
  rw [step_busy hb hr hx]
  simp [frameStep, slotOf, hph, releaseStep, hsub, hrd]

end Sys2Proof.Machine
end

