-- ==== Sys2Proof/Laws/PerInstr.lean ====
section
/-! SUPPORT. Facts about every instruction as syntax, one lemma per constructor. Family `TableRow`: the encoding of an
instruction carries the fixed bits of its row of spec/opcode_table.json. -/

namespace Sys2Proof.Laws

/-- The fixed bits of a row of spec/opcode_table.json: its "mask" and its "match". -/
structure TableRow.Row where
  mask : BitVec 32
  pattern : BitVec 32
deriving DecidableEq, Repr

/-- The row of an instruction, as the table gives it. -/
def TableRow.row : Instr → TableRow.Row
  | .rdreg _ => ⟨7, 0⟩
  | .wrreg _ => ⟨7, 1⟩
  | .rdexp _ => ⟨7, 2⟩
  | .wrexp _ => ⟨7, 3⟩
  | .chkdev _ => ⟨7, 4⟩
  | .rstdev _ => ⟨7, 5⟩
  | .link _ => ⟨7, 6⟩
  | .reserved _ => ⟨7, 7⟩
  | .frameWrite _ _ _ => ⟨4026728448, 1342308352⟩
  | .frameRead _ _ => ⟨4026531840, 1610612736⟩

/-- The bits of a code word that the table gives: `cmd_op` of a command, the 32 bits of a frame. -/
def TableRow.bits : CodeWord → BitVec 32
  | .cmd p => p.op.setWidth 32
  | .frame fw => fw

/-- Under a configuration with the table's turnaround pattern `10` (30_encoding.md R62), the encoding matches the row. -/
def TableRow.Statement (i : Instr) : Prop :=
  ∀ c : Config, c.taWr = 0b10 → TableRow.bits (encode c i) &&& (TableRow.row i).mask = (TableRow.row i).pattern

theorem TableRow.rdreg (a : CmdOperands) : TableRow.Statement (.rdreg a) := fun _ _ => by simp [TableRow.bits, encode, TableRow.row]
theorem TableRow.wrreg (a : CmdOperands) : TableRow.Statement (.wrreg a) := fun _ _ => by simp [TableRow.bits, encode, TableRow.row]
theorem TableRow.rdexp (a : CmdOperands) : TableRow.Statement (.rdexp a) := fun _ _ => by simp [TableRow.bits, encode, TableRow.row]
theorem TableRow.wrexp (a : CmdOperands) : TableRow.Statement (.wrexp a) := fun _ _ => by simp [TableRow.bits, encode, TableRow.row]
theorem TableRow.chkdev (a : CmdOperands) : TableRow.Statement (.chkdev a) := fun _ _ => by simp [TableRow.bits, encode, TableRow.row]
theorem TableRow.rstdev (a : CmdOperands) : TableRow.Statement (.rstdev a) := fun _ _ => by simp [TableRow.bits, encode, TableRow.row]
theorem TableRow.link (a : CmdOperands) : TableRow.Statement (.link a) := fun _ _ => by simp [TableRow.bits, encode, TableRow.row]
theorem TableRow.reserved (a : CmdOperands) : TableRow.Statement (.reserved a) := fun _ _ => by simp [TableRow.bits, encode, TableRow.row]

theorem TableRow.frameWrite (d r : Addr5) (v : Word16) : TableRow.Statement (.frameWrite d r v) := by
  intro c h
  simp only [TableRow.bits, encode, h, TableRow.row]
  apply BitVec.eq_of_getLsbD_eq
  intro i hi
  rw [BitVec.getLsbD_and, getLsbD_fwWrite]
  interval_cases i <;> simp

theorem TableRow.frameRead (d r : Addr5) : TableRow.Statement (.frameRead d r) := by
  intro c _
  simp only [TableRow.bits, encode, TableRow.row]
  apply BitVec.eq_of_getLsbD_eq
  intro i hi
  rw [BitVec.getLsbD_and, getLsbD_readWord, getLsbD_hRead]
  interval_cases i <;> simp

end Sys2Proof.Laws
end

