-- ==== Sys2Proof/Tests/Slice0.lean ====
section
/-! SUPPORT. Tests of the model against words and values written out from the spec, and for each statement a state and
operands that meet its hypotheses. -/

namespace Sys2Proof.Tests

open Sys2Proof.Machine

/-! ### Helpers -/

/-- A configuration with every parameter a numeral: those of 00_scope.md R5, with expansion parameters and a finite limit
of 1. -/
def rec1 : ConfigRecord :=
  ⟨32, 0b10, 2, 32, 0x17, 0x15, 0x0F00, 0, 0x8000, 1, 0x0004, 2, 3, true, some 1⟩

def cfg1 : Config := ⟨rec1, by decide⟩

/-- No limit, and no short circuit. -/
def cfg2 : Config := ⟨{ rec1 with resetPollLimit := none, idShortCircuit := false }, by decide⟩

/-- A limit of 2. -/
def cfg3 : Config := ⟨{ rec1 with resetPollLimit := some 2 }, by decide⟩

/-- The block idle after reset, the data line held at a level. -/
def idle (c : Config) (b : Level) : State := { State.reset with cfg := c, env := ⟨[], some b, 0⟩ }

/-- The same, answering sixteen zeros first. -/
def idleZerosFirst (c : Config) (b : Level) : State :=
  { State.reset with cfg := c, env := ⟨List.replicate 16 false, some b, 0⟩ }

/-- The same, with pins of the coming step. -/
def withPins (p : HostPins) (s : State) : State := { s with hostIn := [p] }

/-- Busy in a command, at a position. -/
def busy (c : Config) (op : BitVec 3) (k : Fin 3) (ph : Phase) (cnt : Nat) (sub : Sub) : State :=
  { idle c true with
    aOp := op, aDev := 5, aReg := 0x11, aVal := 0xA5C3, busy := true, seq := ⟨k, ph, cnt, sub⟩
    mdcO := decide (sub = .fall)
    mdioOe := decide (ph ≠ .start ∧ ph ≠ .ta) }

/-- A field of the next state, if there is one. -/
def after {α : Type} (f : State → α) : Result → Option α
  | .next t => some (f t)
  | .fault _ => none
  | .refused _ => none

/-! ### Well-formedness: an ill-formed term for each check -/

theorem test_wellFormed_widest : (Instr.wrexp ⟨31, 0xFFFF, 0xFFFF, 2 ^ 17 - 1⟩).wellFormed 17 = true := by decide
theorem test_dev_port_too_narrow : (Instr.rdreg ⟨2 ^ 17, 0, 0, 0⟩).wellFormed 17 = false := by decide
theorem test_reg_port_too_narrow : (Instr.wrreg ⟨0, 2 ^ 17, 0, 0⟩).wellFormed 17 = false := by decide
theorem test_val_port_too_narrow : (Instr.rdexp ⟨0, 0, 2 ^ 17, 0⟩).wellFormed 17 = false := by decide
theorem test_val2_port_too_narrow : (Instr.wrexp ⟨0, 0, 0, 2 ^ 17⟩).wellFormed 17 = false := by decide
theorem test_other_commands_port_too_narrow :
    (Instr.chkdev ⟨2 ^ 17, 0, 0, 0⟩).wellFormed 17 = false ∧ (Instr.rstdev ⟨0, 2 ^ 17, 0, 0⟩).wellFormed 17 = false ∧
    (Instr.link ⟨0, 0, 2 ^ 17, 0⟩).wellFormed 17 = false ∧
    (Instr.reserved ⟨0, 0, 0, 2 ^ 17⟩).wellFormed 17 = false := by decide

/-- Each condition of 00_scope.md R5, broken alone: the record is refused. -/
theorem test_ill_formed_configurations :
    rec1.wellFormed = true ∧
    { rec1 with preambleLen := 31 }.wellFormed = false ∧ { rec1 with taRdClocks := 0 }.wellFormed = false ∧
    { rec1 with argw := 16 }.wellFormed = false ∧ { rec1 with selReg := 32 }.wellFormed = false ∧
    { rec1 with dataReg := 32 }.wellFormed = false ∧ { rec1 with ctrlReg := 32 }.wellFormed = false ∧
    { rec1 with statusReg := 32 }.wellFormed = false ∧ { rec1 with idHiReg := 32 }.wellFormed = false ∧
    { rec1 with idLoReg := 32 }.wellFormed = false ∧ { rec1 with dataReg := 0x17 }.wellFormed = false ∧
    { rec1 with pageSelBits := 0x10000 }.wellFormed = false ∧ { rec1 with resetMask := 0x10000 }.wellFormed = false ∧
    { rec1 with linkMask := 0x10000 }.wellFormed = false ∧ { rec1 with resetMask := 0 }.wellFormed = false ∧
    { rec1 with linkMask := 0 }.wellFormed = false ∧
    { rec1 with resetPollLimit := some 0 }.wellFormed = false := by decide

theorem test_ill_formed_record_is_refused : Config.ofRecord? { rec1 with preambleLen := 31 } = none := rfl

/-! ### Decoding: the words of spec/opcode_table.json and 30_encoding.md R60 to R66 -/

theorem test_decode_rdreg : decode cfg1 (.cmd ⟨0b000, ⟨5, 1, 0, 0⟩⟩) = .ok (.rdreg ⟨5, 1, 0, 0⟩) := rfl
theorem test_decode_wrreg : decode cfg1 (.cmd ⟨0b001, ⟨5, 1, 2, 0⟩⟩) = .ok (.wrreg ⟨5, 1, 2, 0⟩) := rfl
theorem test_decode_rdexp : decode cfg1 (.cmd ⟨0b010, ⟨5, 7, 0, 0⟩⟩) = .ok (.rdexp ⟨5, 7, 0, 0⟩) := rfl
theorem test_decode_wrexp : decode cfg1 (.cmd ⟨0b011, ⟨5, 7, 9, 0⟩⟩) = .ok (.wrexp ⟨5, 7, 9, 0⟩) := rfl
theorem test_decode_chkdev : decode cfg1 (.cmd ⟨0b100, ⟨5, 0, 1, 2⟩⟩) = .ok (.chkdev ⟨5, 0, 1, 2⟩) := rfl
theorem test_decode_rstdev : decode cfg1 (.cmd ⟨0b101, ⟨5, 0, 0, 0⟩⟩) = .ok (.rstdev ⟨5, 0, 0, 0⟩) := rfl
theorem test_decode_link : decode cfg1 (.cmd ⟨0b110, ⟨5, 0, 0, 0⟩⟩) = .ok (.link ⟨5, 0, 0, 0⟩) := rfl
theorem test_decode_reserved : decode cfg1 (.cmd ⟨0b111, ⟨0, 0, 0, 0⟩⟩) = .ok (.reserved ⟨0, 0, 0, 0⟩) := rfl

/-- ST 01, OP 01, PHYAD 00101, REGAD 10001, TA 10, DATA 0xA5C3 (30_encoding.md R60, R62). -/
theorem test_decode_frameWrite :
    decode cfg1 (.frame (0b01#2 ++ 0b01#2 ++ 0b00101#5 ++ 0b10001#5 ++ 0b10#2 ++ 0b1010010111000011#16)) =
      .ok (.frameWrite 5 17 0xA5C3) := rfl

/-- ST 01, OP 10, PHYAD 10000, REGAD 00001, then 18 bits the master does not drive (30_encoding.md R60, R63). -/
theorem test_decode_frameRead :
    decode cfg1 (.frame (0b01#2 ++ 0b10#2 ++ 0b10000#5 ++ 0b00001#5 ++ 0b11#2 ++ 0x1234#16)) =
      .ok (.frameRead 16 1) := rfl

/-- A write frame with another turnaround field, and a port too narrow, are rejected by name. -/
theorem test_decode_rejects :
    decode cfg1 (.frame 0b01010010110001111010010111000011#32) = .error .badTurnaround ∧
    decode cfg1 (.cmd ⟨0, ⟨2 ^ 32, 0, 0, 0⟩⟩) = .error .operandWiderThanPort := ⟨rfl, rfl⟩

theorem test_table_words :
    decodeTableWord 8 4 = some (.chkdev ⟨0, 0, 0, 0⟩) ∧ decodeTableWord 32 1342308352 = some (.frameWrite 0 0 0) ∧
    decodeTableWord 32 1610612736 = some (.frameRead 0 0) ∧ decodeTableWord 32 0 = none ∧
    decodeTableWord 16 0 = none := ⟨rfl, rfl, rfl, rfl, rfl⟩

/-! ### One step of each instruction -/

theorem test_rdreg_accepted :
    after (fun t => (t.aOp, t.aDev, t.aReg, t.busy, t.done, t.trace.length))
      (exec (.rdreg ⟨31, 31, 0, 0⟩) { idle cfg1 true with done := true }) = some (0, 31, 31, true, false, 0) := by decide
theorem test_rdreg_rejected :
    after (fun t => (t.status, t.result, t.done, t.busy)) (exec (.rdreg ⟨0, 32, 0, 0⟩) (idle cfg1 true)) =
      some (.invalidArgument, 0, true, false) := by decide
theorem test_wrreg_accepted :
    after (fun t => (t.aOp, t.aDev, t.aReg, t.aVal)) (exec (.wrreg ⟨31, 0, 0xFFFF, 0⟩) (idle cfg1 true)) =
      some (1, 31, 0, 0xFFFF) := by decide
theorem test_wrreg_rejected :
    after (fun t => (t.status, t.aVal)) (exec (.wrreg ⟨0, 0, 0x10000, 0⟩) (idle cfg1 true)) =
      some (.invalidArgument, 0) := by decide
theorem test_rdexp_accepted :
    after (fun t => (t.aOp, t.aReg, t.seq)) (exec (.rdexp ⟨0, 0xFFFF, 0x10000, 0⟩) (idle cfg1 true)) =
      some (2, 0xFFFF, ⟨0, .start, 0, .data⟩) := by decide
theorem test_rdexp_rejected :
    after (fun t => t.status) (exec (.rdexp ⟨0, 0x10000, 0, 0⟩) (idle cfg1 true)) = some .invalidArgument := by decide
theorem test_wrexp_accepted :
    after (fun t => (t.aOp, t.aReg, t.aVal)) (exec (.wrexp ⟨0, 0x12, 0x34, 0⟩) (idle cfg1 true)) =
      some (3, 0x12, 0x34) := by decide
theorem test_wrexp_select_value :
    after selectValue (exec (.wrexp ⟨0, 0x12, 0x34, 0⟩) (idle cfg1 true)) = some 0x0F12 := by decide
theorem test_chkdev_accepted :
    after (fun t => (t.aOp, t.aVal, t.aVal2, t.m1)) (exec (.chkdev ⟨1, 99, 0x7, 0xFFFF⟩) { idle cfg1 true with m1 := true }) =
      some (4, 7, 0xFFFF, false) := by decide
theorem test_chkdev_rejected :
    after (fun t => t.status) (exec (.chkdev ⟨1, 0, 0, 0x10000⟩) (idle cfg1 true)) = some .invalidArgument := by decide
theorem test_rstdev_accepted :
    after (fun t => (t.aOp, t.polls)) (exec (.rstdev ⟨31, 0, 0, 0⟩) { idle cfg1 true with polls := 7 }) =
      some (5, 0) := by decide
theorem test_rstdev_times_out :
    after (fun t => (t.status, t.result, t.done, t.busy, t.polls))
      (exec (.frameRead 5 0) { busy cfg1 5 1 .data 1 .fall with shr := 0x8000 }) =
      some (.timeout, 0, true, false, 1) := by decide
theorem test_link_accepted :
    after (fun t => (t.aOp, t.aDev)) (exec (.link ⟨31, 32, 0, 0⟩) (idle cfg1 true)) = some (6, 31) := by decide
theorem test_link_second_read :
    after (fun t => (t.busy, t.seq.xact, t.seq.ph)) (exec (.frameRead 5 1) { busy cfg1 6 0 .data 1 .fall with shr := 0xFFFB }) =
      some (true, 1, .start) := by decide
theorem test_reserved_rejected :
    after (fun t => (t.status, t.result, t.done, t.trace.length)) (exec (.reserved ⟨0, 0, 0, 0⟩) { idle cfg1 true with result := 9 }) =
      some (.invalidArgument, 0, true, 0) := by decide
theorem test_frameWrite_data_bit :
    after (fun t => (t.mdioO, t.trace, t.seq.sub)) (exec (.frameWrite 5 17 0x8000) (busy cfg1 1 0 .data 16 .data)) =
      some (true, [.wr .mdio true], .rise) := by decide
theorem test_frameWrite_release_completes :
    after (fun t => (t.mdioOe, t.status, t.done, t.busy, t.trace))
      (exec (.frameWrite 5 17 0) (busy cfg1 1 0 .rel 0 .data)) =
      some (false, .ok, true, false, [.dir .mdio .input]) := by decide
theorem test_frameRead_sample_shifts :
    after (fun t => (t.shr, t.trace, t.seq.cnt)) (exec (.frameRead 5 17) { busy cfg1 0 0 .data 1 .data with shr := 0x8001 }) =
      some (0x0003, [.rd .mdio true], 1) := by decide
theorem test_frameRead_turnaround :
    after (fun t => (t.mdcO, t.seq)) (exec (.frameRead 5 17) (busy cfg1 0 0 .ta 1 .fall)) =
      some (false, ⟨0, .data, 16, .data⟩) := by decide

theorem test_step_runs_a_command :
    after (fun t => (t.aOp, t.busy)) (step (State.reset.withFetchWord 8 6)) = some (6, true) := by decide
theorem test_step_runs_a_frame :
    after (fun t => (t.mdioOe, t.trace)) (step (State.reset.withFetchWord 32 1610612736)) =
      some (true, [.dir .mdio .output]) := by decide

/-! ### Witnesses: what meets the hypotheses of each statement -/

theorem noReset_idle (c : Config) (b : Level) (n : Nat) : NoReset n (idle c b) := by
  intro p hp
  simp [idle, State.reset] at hp

theorem noReset_busy (c : Config) (op : BitVec 3) (k : Fin 3) (ph : Phase) (cnt : Nat) (sub : Sub) (n : Nat) :
    NoReset n (busy c op k ph cnt sub) := by
  intro p hp
  simp [busy, idle, State.reset] at hp

theorem ready_idle (c : Config) (b : Level) : Ready (idle c b) := ⟨rfl, rfl, rfl, rfl, rfl⟩

theorem ready_idleZerosFirst (c : Config) (b : Level) : Ready (idleZerosFirst c b) := ⟨rfl, rfl, rfl, rfl, rfl⟩

theorem noReset_idleZerosFirst (c : Config) (b : Level) (n : Nat) : NoReset n (idleZerosFirst c b) := by
  intro p hp
  simp [idleZerosFirst, State.reset] at hp

theorem word_ones (c : Config) (j : Nat) : (idle c true).env.word j = 0xFFFF := by
  rw [show (idle c true).env = ⟨[], some true, 0⟩ from rfl, Env.word_held, sampledWord]
  decide

theorem word_zeros (c : Config) (j : Nat) : (idle c false).env.word j = 0 := by
  rw [show (idle c false).env = ⟨[], some false, 0⟩ from rfl, Env.word_held, sampledWord]
  decide

theorem word_zeros_then_ones (c : Config) :
    (idleZerosFirst c true).env.word 0 = 0 ∧ (idleZerosFirst c true).env.word 1 = 0xFFFF := by
  rw [show (idleZerosFirst c true).env = ⟨List.replicate 16 false, some true, 0⟩ from rfl]
  with_unfolding_all decide

theorem witness_DecodeOfEncode :
    (Instr.wrexp ⟨31, 0xFFFF, 0xFFFF, 2 ^ 32 - 1⟩).wellFormed cfg1.argw = true ∧
    (Instr.frameWrite 31 31 0xFFFF).wellFormed cfg1.argw = true := by decide

theorem witness_DecodedWordHasOneMeaning :
    decode cfg1 (.cmd ⟨6, ⟨31, 0, 0, 0⟩⟩) = .ok (.link ⟨31, 0, 0, 0⟩) ∧
    decode cfg1 (.frame 0x5FFEFFFF#32) = .ok (.frameWrite 31 31 0xFFFF) ∧
    decode cfg1 (.frame 0x6FFC0001#32) = .ok (.frameRead 31 31) := ⟨rfl, rfl, rfl⟩

theorem witness_OtherFramesAreRejected :
    (0x90000000#32).extractLsb' 30 2 ≠ 0b01#2 ∧
    (0x40000000#32).extractLsb' 30 2 = 0b01#2 ∧ (0x40000000#32).extractLsb' 28 2 = 0b00#2 ∧
    (0x7FFFFFFF#32).extractLsb' 30 2 = 0b01#2 ∧ (0x7FFFFFFF#32).extractLsb' 28 2 = 0b11#2 := by decide

theorem witness_StepRunsTheDecodedInstruction :
    (hostPins (withPins ⟨false, true, ⟨6, ⟨31, 0, 0, 0⟩⟩⟩ (idle cfg1 true)) = ⟨false, true, ⟨6, ⟨31, 0, 0, 0⟩⟩⟩ ∧
      decode cfg1 (.cmd ⟨6, ⟨31, 0, 0, 0⟩⟩) = .ok (.link ⟨31, 0, 0, 0⟩)) ∧
    ((busy cfg1 1 0 .start 0 .data).busy = true ∧ (hostPins (busy cfg1 1 0 .start 0 .data)).rst = false ∧
      currentTransaction (busy cfg1 1 0 .start 0 .data) = some ⟨false, 0x11, 0xA5C3⟩) ∧
    decode (idle cfg1 true).cfg (.cmd ⟨BitVec.ofNat 3 7, ⟨0, 0, 0, 0⟩⟩) = .ok (.reserved ⟨0, 0, 0, 0⟩) ∧
    decode (idle cfg1 true).cfg (.frame (BitVec.ofNat 32 0x50020000)) = .ok (.frameWrite 0 0 0) :=
  ⟨⟨rfl, rfl⟩, ⟨rfl, rfl, rfl⟩, rfl, rfl⟩

theorem witness_ResetPin :
    (hostPins (withPins ⟨true, true, ⟨0, ⟨0, 0, 0, 0⟩⟩⟩ (busy cfg1 0 0 .data 3 .rise))).rst = true := rfl

theorem witness_IdleBlockWaits :
    (idle cfg1 true).busy = false ∧ (hostPins (idle cfg1 true)).rst = false ∧
    (hostPins (idle cfg1 true)).cmdValid = false := ⟨rfl, rfl, rfl⟩

/-- `AcceptStepOfEveryCommand`: idle, each command on both sides of each bound. -/
theorem witness_AcceptStep :
    (idle cfg1 true).busy = false ∧
    invalidRdreg ⟨31, 31, 0, 0⟩ = false ∧ invalidRdreg ⟨32, 31, 0, 0⟩ = true ∧ invalidRdreg ⟨31, 32, 0, 0⟩ = true ∧
    invalidWrreg ⟨31, 31, 0xFFFF, 0⟩ = false ∧ invalidWrreg ⟨31, 31, 0x10000, 0⟩ = true ∧
    invalidRdexp ⟨31, 0xFFFF, 0, 0⟩ = false ∧ invalidRdexp ⟨31, 0x10000, 0, 0⟩ = true ∧
    invalidWrexp ⟨31, 0xFFFF, 0xFFFF, 0⟩ = false ∧ invalidWrexp ⟨31, 0xFFFF, 0x10000, 0⟩ = true ∧
    invalidChkdev ⟨31, 0, 0xFFFF, 0xFFFF⟩ = false ∧ invalidChkdev ⟨31, 0, 0xFFFF, 0x10000⟩ = true ∧
    invalidRstdev ⟨31, 0, 0, 0⟩ = false ∧ invalidRstdev ⟨32, 0, 0, 0⟩ = true ∧
    invalidLink ⟨31, 0, 0, 0⟩ = false ∧ invalidLink ⟨32, 0, 0, 0⟩ = true := by decide

/-- `BusyBlockIgnoresCommands`, `FrameStepsLeaveTheRestAlone`: a busy state, with a next state of each frame. -/
theorem witness_busy :
    (busy cfg1 1 0 .data 16 .rise).busy = true ∧
    after (fun t => t.busy) (exec (.frameWrite 5 17 3) (busy cfg1 1 0 .data 16 .rise)) = some true ∧
    after (fun t => t.busy) (exec (.frameRead 5 17) (busy cfg1 0 0 .data 1 .fall)) = some false := by decide

/-- The two step tables: a busy state at every row, with the counts 1 and 2 where a slot ends. -/
theorem witness_step_tables (op : BitVec 3) (ph : Phase) (sub : Sub) :
    (busy cfg1 op 0 ph 1 sub).busy = true ∧ (busy cfg1 op 0 ph 1 sub).seq = ⟨0, ph, 1, sub⟩ ∧
    (busy cfg1 op 0 ph 2 sub).busy = true ∧ (busy cfg1 op 0 ph 2 sub).seq = ⟨0, ph, 2, sub⟩ := ⟨rfl, rfl, rfl, rfl⟩

theorem witness_IdleEngine : (idle cfg1 true).busy = false := rfl

/-- `EndOfTransactionLogic`: the states of each clause, where the clause asks for more than `A_OP` and `XACT`. -/
theorem witness_EndOfTransactionLogic :
    (∀ (op : BitVec 3) (k : Fin 3), (busy cfg1 op k .rel 0 .data).aOp = op ∧ (busy cfg1 op k .rel 0 .data).seq.xact = k) ∧
    ((busy cfg1 4 0 .data 1 .fall).shr ≠ (busy cfg1 4 0 .data 1 .fall).aVal ∧ cfg1.idShortCircuit = true) ∧
    cfg2.idShortCircuit = false ∧
    (0x7FFF#16 &&& cfg1.resetMask = 0) ∧ (0x8000#16 &&& cfg1.resetMask ≠ 0) ∧
    cfg1.resetPollLimit = some ((busy cfg1 5 1 .data 1 .fall).polls + 1) ∧
    cfg3.resetPollLimit ≠ some ((busy cfg3 5 1 .data 1 .fall).polls + 1) ∧
    (0x0004#16 &&& cfg1.linkMask ≠ 0) ∧ (0xFFFB#16 &&& cfg1.linkMask = 0) := by
  refine ⟨fun _ _ => ⟨rfl, rfl⟩, ?_⟩
  decide

/-- `StaleLevelAtFrameStart`: the start of a write frame (`A_OP` 1) and of a read frame (`A_OP` 0). -/
theorem witness_StaleLevel (op : BitVec 3) :
    (busy cfg1 op 0 .start 0 .data).busy = true ∧
    (busy cfg1 op 0 .start 0 .data).seq = ⟨(busy cfg1 op 0 .start 0 .data).seq.xact, .start, 0, .data⟩ ∧
    (busy cfg1 op 0 .start 0 .data).mdcO = false := ⟨rfl, rfl, rfl⟩

theorem witness_EngineRefines :
    ((busy cfg1 1 0 .start 0 .data).busy = true ∧ (busy cfg1 1 0 .start 0 .data).seq = ⟨0, .start, 0, .data⟩ ∧
      currentTransaction (busy cfg1 1 0 .start 0 .data) = some ⟨false, 0x11, 0xA5C3⟩ ∧
      NoReset (3 * cfg1.preambleLen + 97) (busy cfg1 1 0 .start 0 .data)) ∧
    ((busy cfg1 0 0 .start 0 .data).busy = true ∧ (busy cfg1 0 0 .start 0 .data).seq = ⟨0, .start, 0, .data⟩ ∧
      currentTransaction (busy cfg1 0 0 .start 0 .data) = some ⟨true, 0x11, 0⟩ ∧
      NoReset (3 * cfg1.preambleLen + 91 + 2 * cfg1.taRdClocks) (busy cfg1 0 0 .start 0 .data)) :=
  ⟨⟨rfl, rfl, rfl, noReset_busy _ _ _ _ _ _ _⟩, ⟨rfl, rfl, rfl, noReset_busy _ _ _ _ _ _ _⟩⟩

theorem witness_sixteen_samples : (List.replicate 16 true).length = 16 := by decide

/-- The whole commands but `CHKDEV`, `RSTDEV`, `LINK`, and the trace identities: a ready block, no reset, operands at
their bounds; the rejected forms just past them. -/
theorem witness_direct_and_expansion (n : Nat) :
    Ready (idle cfg1 true) ∧ NoReset n (idle cfg1 true) ∧ (31 ≤ 31 ∧ 0xFFFF ≤ 0xFFFF) ∧ (32 > 31 ∧ 0x10000 > 0xFFFF) :=
  ⟨ready_idle .., noReset_idle _ _ _, by decide, by decide⟩

/-- `ChkdevComparesBothIdentityRegisters`, clause by clause, in an environment of zeros: 1 does not match the first
register, with the short circuit and without; 0 matches it, and then 0xFFFF does not match the second and 0 does. -/
theorem witness_Chkdev (n : Nat) :
    (Ready (idle cfg1 false) ∧ Ready (idle cfg2 false) ∧ NoReset n (idle cfg1 false) ∧ NoReset n (idle cfg2 false)) ∧
    (¬ (idle cfg1 false).env.word 0 = BitVec.ofNat 16 1 ∧ cfg1.idShortCircuit = true) ∧
    (¬ (idle cfg2 false).env.word 0 = BitVec.ofNat 16 1 ∧ cfg2.idShortCircuit = false) ∧
    ((idle cfg1 false).env.word 0 = BitVec.ofNat 16 0 ∧ ¬ (idle cfg1 false).env.word 1 = BitVec.ofNat 16 0xFFFF) ∧
    ((idle cfg1 false).env.word 0 = BitVec.ofNat 16 0 ∧ (idle cfg1 false).env.word 1 = BitVec.ofNat 16 0) := by
  simp only [word_zeros]
  exact ⟨⟨ready_idle .., ready_idle .., noReset_idle _ _ _, noReset_idle _ _ _⟩, ⟨by decide, rfl⟩, ⟨by decide, rfl⟩,
    ⟨by decide, by decide⟩, by decide, by decide⟩

/-- `LinkReadsTwiceWhenDown`: up at once; down twice; up on the second read. -/
theorem witness_Link (n : Nat) :
    (Ready (idle cfg1 true) ∧ NoReset n (idle cfg1 true) ∧ (idle cfg1 true).env.word 0 &&& cfg1.linkMask ≠ 0) ∧
    (Ready (idle cfg1 false) ∧ NoReset n (idle cfg1 false) ∧ (idle cfg1 false).env.word 0 &&& cfg1.linkMask = 0 ∧
      (idle cfg1 false).env.word 1 &&& cfg1.linkMask = 0) ∧
    (Ready (idleZerosFirst cfg1 true) ∧ NoReset n (idleZerosFirst cfg1 true) ∧
      (idleZerosFirst cfg1 true).env.word 0 &&& cfg1.linkMask = 0 ∧
      (idleZerosFirst cfg1 true).env.word 1 &&& cfg1.linkMask ≠ 0) := by
  simp only [word_zeros, word_ones, (word_zeros_then_ones cfg1).1, (word_zeros_then_ones cfg1).2]
  exact ⟨⟨ready_idle .., noReset_idle _ _ _, by decide⟩, ⟨ready_idle .., noReset_idle _ _ _, by decide, by decide⟩,
    ready_idleZerosFirst .., noReset_idleZerosFirst _ _ _, by decide, by decide⟩

/-- `RstdevPollLoop`, `RstdevTimesOutAtTheLimit`: a poll that shows the bit clear at once (`k = 0`); one that reaches the
limit of 1 (`k = 0`); one that goes on, below a limit of 2; and the last poll of that limit (`k = 1`). -/
theorem witness_Rstdev (n : Nat) :
    (Ready (idle cfg1 false) ∧ NoReset n (idle cfg1 false) ∧ (∀ l, cfg1.resetPollLimit = some l → 0 < l) ∧
      (idle cfg1 false).env.word 0 &&& cfg1.resetMask = 0) ∧
    (Ready (idle cfg1 true) ∧ NoReset n (idle cfg1 true) ∧ cfg1.resetPollLimit = some (0 + 1) ∧
      ∀ j, (idle cfg1 true).env.word j &&& cfg1.resetMask ≠ 0) ∧
    (Ready (idle cfg3 true) ∧ NoReset n (idle cfg3 true) ∧ cfg3.resetPollLimit ≠ some (0 + 1) ∧
      cfg3.resetPollLimit = some (1 + 1) ∧ (∀ l, cfg3.resetPollLimit = some l → 1 < l) ∧
      ∀ j, (idle cfg3 true).env.word j &&& cfg3.resetMask ≠ 0) := by
  simp only [word_zeros, word_ones]
  refine ⟨⟨ready_idle .., noReset_idle _ _ _, ?_, by decide⟩, ⟨ready_idle .., noReset_idle _ _ _, rfl, fun _ => by decide⟩,
    ready_idle .., noReset_idle _ _ _, by decide, rfl, ?_, fun _ => by decide⟩
  · intro l h
    cases h
    decide
  · intro l h
    cases h
    decide

/-- `RstdevTimesOutAtTheLimit`, second clause: a block without a limit that steps, its status not 2. -/
theorem witness_no_timeout_without_limit :
    (idle cfg2 true).cfg.resetPollLimit = none ∧ after (fun t => t.busy) (step (idle cfg2 true)) = some false ∧
    (idle cfg2 true).status ≠ .timeout := by decide

theorem witness_RstdevHangs :
    Ready (idle cfg2 true) ∧ cfg2.resetPollLimit = none ∧
    (∀ j, (idle cfg2 true).env.word j &&& cfg2.resetMask ≠ 0) ∧ (∀ p ∈ (idle cfg2 true).hostIn, p.rst = false) := by
  simp only [word_ones]
  exact ⟨ready_idle .., rfl, fun _ => by decide, fun p hp => by cases hp⟩

/-- `LoopbackRoundTrip`: with the data line held at 1 the environment answers what `WRREG` of 0xFFFF drove. -/
theorem witness_Loopback (n : Nat) :
    Ready (idle cfg1 true) ∧ NoReset n (idle cfg1 true) ∧
    let levels := risingLevels false true (writeFrameEvents cfg1 31 31 0xFFFF)
    ∀ i < 16, levels[levels.length + 32 + 14 + 2 + i - (32 + 30 + 2)]? =
      ((idle cfg1 true).env.levels 16)[i]?.map some := by
  refine ⟨ready_idle .., noReset_idle _ _ _, ?_⟩
  decide

/-- The whole-machine rules: the block after reset and the idle block meet the invariant, and a busy one at the start of a
frame; each has a next state. -/
theorem witness_Inv_busy : Inv (busy cfg3 1 0 .start 0 .data) := by
  refine ⟨rfl, fun h => ?_, fun _ => rfl, fun _ => ⟨⟨false, 0x11, 0xA5C3⟩, rfl, rfl, rfl, rfl, rfl⟩, fun k h => ?_⟩
  · cases h
  · cases h
    decide

/-- `StepKeepsTheTraceLegal`: both hypotheses together, in the busy state. -/
theorem witness_TraceLegal :
    Inv (busy cfg3 1 0 .start 0 .data) ∧ TraceLegal (busy cfg3 1 0 .start 0 .data) := ⟨witness_Inv_busy, rfl⟩

theorem witness_steps :
    after (fun t => t.trace) (step (busy cfg3 1 0 .start 0 .data)) = some [.dir .mdio .output] ∧
    after (fun t => t.trace) (step (idle cfg1 true)) = some [] ∧
    (hostPins (busy cfg3 1 0 .start 0 .data)).rst = false ∧
    (hostPins (busy cfg3 1 0 .start 0 .data)).cmd.args.fits cfg3.argw = true := by decide

/-- `ResponseHoldsBetweenCompletions`: a busy step that stays busy, and an idle one. -/
theorem witness_ResponseHolds :
    after (fun t => t.busy) (step (busy cfg1 0 0 .data 2 .fall)) = some true ∧
    after (fun t => t.busy) (step (idle cfg1 true)) = some false ∧ (hostPins (idle cfg1 true)).cmdValid = false := by
  decide

/-- `IgnoredPortsHaveNoEffect`: tuples that differ on the ports `LINK` does not use, and two states that differ in latches
it never reads. -/
theorem witness_IgnoredPorts :
    after (fun t => t.aDev) (exec (commandOf 6 ⟨31, 7, 8, 9⟩) (idle cfg1 true)) = some 31 ∧
    maskIgnored (busy cfg1 6 0 .start 0 .data) =
      maskIgnored { busy cfg1 6 0 .start 0 .data with aReg := 1, aVal := 2, aVal2 := 3 } := ⟨by decide, rfl⟩

end Sys2Proof.Tests
end

section
/-! PROOFS. The steps the scope rules speak of (spec/00_scope.md). -/

namespace Sys2Proof.Machine

/-- Settles O8: with no reset, no busy engine and no command, the priority of R147 leaves only the waiting step
(`step_wait`), and `nextInput`, by definition, uses up one pin record and keeps every other field. -/
theorem idleBlockWaits : Obligations.IdleBlockWaits := by
  intro s hbusy hrst hvalid
  have hwait : step s = .next (nextInput s) := step_wait hrst hbusy hvalid
  rw [hwait, nextInput]

end Sys2Proof.Machine
end

section
/-! PROOFS. What a row of the step table, the end of a transaction and an accept step leave unchanged, said once for the
statements over every step. -/

namespace Sys2Proof.Machine

/-! ### What no step of the engine writes (10_state.md R11, R21, R26) -/

/-- `t` has the configuration, the latches, `MDC_OE` and the host's pins of `s`. -/
structure SameCommand (s t : State) : Prop where
  cfg : t.cfg = s.cfg
  aOp : t.aOp = s.aOp
  aDev : t.aDev = s.aDev
  aReg : t.aReg = s.aReg
  aVal : t.aVal = s.aVal
  aVal2 : t.aVal2 = s.aVal2
  mdcOe : t.mdcOe = s.mdcOe
  hostIn : t.hostIn = s.hostIn

/-- `t` has what only the end of a transaction writes as `s` has it: the response, `BUSY`, `POLLS` and `XACT`. -/
structure SameProgress (s t : State) : Prop where
  result : t.result = s.result
  status : t.status = s.status
  done : t.done = s.done
  busy : t.busy = s.busy
  polls : t.polls = s.polls
  xact : t.seq.xact = s.seq.xact

/-- `t` has what only a row writes as `s` has it: `SHR`, the environment, the pins and the line trace. -/
structure SameLines (s t : State) : Prop where
  shr : t.shr = s.shr
  env : t.env = s.env
  mdcO : t.mdcO = s.mdcO
  mdioOe : t.mdioOe = s.mdioOe
  mdioO : t.mdioO = s.mdioO
  trace : t.trace = s.trace

theorem SameCommand.refl (s : State) : SameCommand s s := ⟨rfl, rfl, rfl, rfl, rfl, rfl, rfl, rfl⟩

theorem SameCommand.trans {s t u : State} (h : SameCommand s t) (k : SameCommand t u) : SameCommand s u where
  cfg := k.cfg.trans h.cfg
  aOp := k.aOp.trans h.aOp
  aDev := k.aDev.trans h.aDev
  aReg := k.aReg.trans h.aReg
  aVal := k.aVal.trans h.aVal
  aVal2 := k.aVal2.trans h.aVal2
  mdcOe := k.mdcOe.trans h.mdcOe
  hostIn := k.hostIn.trans h.hostIn

theorem SameCommand.currentTransaction_eq {s t : State} (h : SameCommand s t) (hk : t.seq.xact = s.seq.xact) :
    currentTransaction t = currentTransaction s :=
  currentTransaction_congr h.cfg h.aOp h.aReg h.aVal hk

/-! ### The end of a transaction -/

theorem commandEnd_sameCommand {s : State} {x : Transaction} (hx : currentTransaction s = some x) :
    SameCommand s (commandEnd s) := by
  rcases commandEnd_cases hx with ⟨k, u, e, -, hu⟩ | ⟨v, u, e, hu⟩ | ⟨e, -, -⟩ <;> rw [e]
  · rcases hu with rfl | ⟨rfl, -⟩ | ⟨rfl, -⟩ <;> constructor <;> simp
  · rcases hu with rfl | ⟨rfl, -⟩ | ⟨rfl, -⟩ <;> constructor <;> simp
  · constructor <;> simp

theorem commandEnd_sameLines {s : State} {x : Transaction} (hx : currentTransaction s = some x) :
    SameLines s (commandEnd s) := by
  rcases commandEnd_cases hx with ⟨k, u, e, -, hu⟩ | ⟨v, u, e, hu⟩ | ⟨e, -, -⟩ <;> rw [e]
  · rcases hu with rfl | ⟨rfl, -⟩ | ⟨rfl, -⟩ <;> constructor <;> simp
  · rcases hu with rfl | ⟨rfl, -⟩ | ⟨rfl, -⟩ <;> constructor <;> simp
  · constructor <;> simp

/-- The end of a transaction either starts the next frame, the response as it was, or completes the command
(10_state.md R13, R15). -/
theorem commandEnd_response {s : State} {x : Transaction} (hx : currentTransaction s = some x) :
    ((commandEnd s).busy = s.busy ∧ (commandEnd s).result = s.result ∧ (commandEnd s).status = s.status ∧
      (commandEnd s).done = s.done) ∨
    ((commandEnd s).busy = false ∧ (commandEnd s).done = true ∧ (commandEnd s).seq = Seq.idle) := by
  rcases commandEnd_cases hx with ⟨k, u, e, -, hu⟩ | ⟨v, u, e, hu⟩ | ⟨e, -, -⟩ <;> rw [e]
  · rcases hu with rfl | ⟨rfl, -⟩ | ⟨rfl, -⟩ <;> simp
  · exact .inr ⟨rfl, rfl, rfl⟩
  · exact .inr ⟨rfl, rfl, rfl⟩

/-! ### A row of the step table -/

/-- `u` is `s` after the line event `e` and the updates of a row of 40_codec.md R88, before the command's
end-of-transaction logic. -/
structure RowStep (s : State) (e : LineEvent) (u : State) : Prop where
  command : SameCommand s u
  progress : SameProgress s u
  trace : u.trace = s.trace ++ [e]

theorem RowStep.enter {s u : State} {e : LineEvent} (h : RowStep s e u) (ph : Phase) (n : Nat) (sub : Sub) :
    RowStep s e (enter ph n sub u) := by
  obtain ⟨hc, hp, ht⟩ := h
  refine ⟨?_, ?_, ht⟩
  · constructor <;> simp [hc.cfg, hc.aOp, hc.aDev, hc.aReg, hc.aVal, hc.aVal2, hc.mdcOe, hc.hostIn]
  · constructor <;> simp [hp.result, hp.status, hp.done, hp.busy, hp.polls, hp.xact]

theorem rowStep_dirOutput (s : State) : RowStep s (.dir .mdio .output) (dirOutput s) := by
  refine ⟨?_, ?_, rfl⟩ <;> constructor <;> simp

theorem rowStep_dirInput (s : State) : RowStep s (.dir .mdio .input) (dirInput s) := by
  refine ⟨?_, ?_, rfl⟩ <;> constructor <;> simp

theorem rowStep_turnaround (s : State) : RowStep s (.dir .mdio .input) (clearShr (dirInput s)) := by
  refine ⟨?_, ?_, rfl⟩ <;> constructor <;> simp

theorem rowStep_wrMdio (b : Level) (s : State) : RowStep s (.wr .mdio b) (wrMdio b s) := by
  refine ⟨?_, ?_, rfl⟩ <;> constructor <;> simp

theorem rowStep_wrMdc (b : Level) (s : State) : RowStep s (.wr .mdc b) (wrMdc b s) := by
  refine ⟨?_, ?_, rfl⟩ <;> constructor <;> simp

theorem rowStep_sample (s : State) :
    RowStep s (.rd .mdio s.env.next.1) (shiftShr (rdMdio s).1 (rdMdio s).2) := by
  refine ⟨?_, ?_, rfl⟩ <;> constructor <;> simp

/-- A row is one line event, with the end-of-transaction logic after it where the frame ends (40_codec.md R88). -/
theorem frameStep_rowStep {d : Addr5} {x : Transaction} {s t : State} (h : frameStep d x s = .next t) :
    ∃ e u, RowStep s e u ∧ (t = u ∨ (∃ y, currentTransaction u = some y) ∧ t = commandEnd u) := by
  rcases frameStep_cases h with ⟨-, -, rfl⟩ | ⟨f, ph, n, -, hrow⟩ | ⟨-, -, hrow⟩ | ⟨-, hrow⟩ | ⟨-, hrow⟩
  · exact ⟨_, _, (rowStep_dirOutput s).enter .., .inl rfl⟩
  · rcases hrow with ⟨-, -, rfl⟩ | ⟨-, rfl⟩ | ⟨-, -, rfl⟩ | ⟨-, -, rfl⟩
    · exact ⟨_, _, (rowStep_wrMdio _ s).enter .., .inl rfl⟩
    all_goals exact ⟨_, _, (rowStep_wrMdc _ s).enter .., .inl rfl⟩
  · rcases hrow with ⟨-, rfl⟩ | ⟨-, hy, rfl⟩
    · exact ⟨_, _, (rowStep_turnaround s).enter .., .inl rfl⟩
    · exact ⟨_, _, rowStep_dirInput s, .inr ⟨hy, rfl⟩⟩
  · rcases hrow with ⟨-, rfl⟩ | ⟨-, -, rfl⟩ | ⟨-, -, rfl⟩
    all_goals exact ⟨_, _, (rowStep_wrMdc _ s).enter .., .inl rfl⟩
  · rcases hrow with ⟨-, rfl⟩ | ⟨-, rfl⟩ | ⟨-, -, rfl⟩ | ⟨-, -, hy, rfl⟩
    · exact ⟨_, _, (rowStep_sample s).enter .., .inl rfl⟩
    · exact ⟨_, _, (rowStep_wrMdc _ s).enter .., .inl rfl⟩
    · exact ⟨_, _, (rowStep_wrMdc _ s).enter .., .inl rfl⟩
    · exact ⟨_, _, rowStep_wrMdc _ s, .inr ⟨hy, rfl⟩⟩

theorem frameStep_sameCommand {d : Addr5} {x : Transaction} {s t : State} (h : frameStep d x s = .next t) :
    SameCommand s t := by
  obtain ⟨e, u, hu, rfl | ⟨⟨y, hy⟩, rfl⟩⟩ := frameStep_rowStep h
  · exact hu.command
  · exact hu.command.trans (commandEnd_sameCommand hy)

/-- Every row makes exactly one line event (10_state.md R15). -/
theorem frameStep_trace {d : Addr5} {x : Transaction} {s t : State} (h : frameStep d x s = .next t) :
    ∃ e, t.trace = s.trace ++ [e] := by
  obtain ⟨e, u, hu, rfl | ⟨⟨y, hy⟩, rfl⟩⟩ := frameStep_rowStep h
  · exact ⟨e, hu.trace⟩
  · exact ⟨e, (commandEnd_sameLines hy).trace.trans hu.trace⟩

/-- A row leaves the response and `BUSY`, or completes the command (10_state.md R13, R15). -/
theorem frameStep_response {d : Addr5} {x : Transaction} {s t : State} (h : frameStep d x s = .next t) :
    (t.busy = s.busy ∧ t.result = s.result ∧ t.status = s.status ∧ t.done = s.done) ∨
    (t.busy = false ∧ t.done = true ∧ t.seq = Seq.idle) := by
  obtain ⟨e, u, ⟨-, hp, -⟩, rfl | ⟨⟨y, hy⟩, rfl⟩⟩ := frameStep_rowStep h
  · exact .inl ⟨hp.busy, hp.result, hp.status, hp.done⟩
  · rw [← hp.busy, ← hp.result, ← hp.status, ← hp.done]
    exact commandEnd_response hy

/-- A write frame samples nothing (20_memory.md R47). -/
theorem frameStep_write_samples_nothing {d : Addr5} {x : Transaction} {s t : State} (hx : x.read = false)
    (h : frameStep d x s = .next t) : t.shr = s.shr ∧ t.env = s.env := by
  rcases frameStep_cases h with ⟨-, -, rfl⟩ | ⟨f, ph, n, -, hrow⟩ | ⟨-, -, hrow⟩ | ⟨hs, -⟩ | ⟨hs, -⟩
  · exact ⟨rfl, rfl⟩
  · rcases hrow with ⟨-, -, rfl⟩ | ⟨-, rfl⟩ | ⟨-, -, rfl⟩ | ⟨-, -, rfl⟩ <;> exact ⟨rfl, rfl⟩
  · rcases hrow with ⟨hread, -⟩ | ⟨-, ⟨y, hy⟩, rfl⟩
    · simp [hx] at hread
    · exact ⟨(commandEnd_sameLines hy).shr, (commandEnd_sameLines hy).env⟩
  · cases hp : s.seq.ph <;> simp [slotOf, hp, hx] at hs
  · cases hp : s.seq.ph <;> simp [slotOf, hp, hx] at hs

/-! ### The two frames as instructions -/

theorem exec_frameWrite_busy {s : State} (hb : s.busy = true) (d r : Addr5) (v : Word16) :
    exec (.frameWrite d r v) s = frameStep d (memWrite r v) s := by
  simp [exec, execFrameWrite, hb]

theorem exec_frameRead_busy {s : State} (hb : s.busy = true) (d r : Addr5) :
    exec (.frameRead d r) s = frameStep d (memRead r) s := by
  simp [exec, execFrameRead, hb]

/-! ### The host's command (10_state.md R24, 60_exceptions.md R140) -/

theorem decodeCommand_ok {n : Nat} {p : CmdPorts} {i : Instr} (h : decodeCommand n p = .ok i) :
    i = commandOf p.op p.args := by
  unfold decodeCommand at h
  split at h
  · exact (Except.ok.inj h).symm
  · cases h

/-- A command in an idle block is rejected or accepted; the reserved code never is accepted (30_encoding.md R69). -/
theorem exec_command_idle {s t : State} {op : BitVec 3} {a : CmdOperands} (hb : s.busy = false)
    (h : exec (commandOf op a) s = .next t) :
    t = rejected s ∨ (op ≠ 7 ∧ t = beginCommand (latch op a (clearDone s))) := by
  by_cases h7 : op = 7
  · subst h7
    have ht : t = accept 7 true a s := (Host.Outcome.next.inj h).symm
    exact .inl (ht.trans (accept_invalid hb 7 a))
  · obtain ⟨b, hexec⟩ := exec_command op a s
    have ht : t = accept op b a s := (Host.Outcome.next.inj (hexec.symm.trans h)).symm
    cases b with
    | true => exact .inl (ht.trans (accept_invalid hb op a))
    | false => exact .inr ⟨h7, ht.trans (accept_valid hb op a)⟩

/-- Everything a step of an idle block can do without a reset: reject a command, accept one, or wait. -/
theorem step_idle_cases {s t : State} (hr : (hostPins s).rst = false) (hb : s.busy = false) (h : step s = .next t) :
    ((hostPins s).cmdValid = true ∧ t = rejected (nextInput s)) ∨
    (∃ op a, op ≠ 7 ∧ (hostPins s).cmdValid = true ∧ t = beginCommand (latch op a (clearDone (nextInput s)))) ∨
    ((hostPins s).cmdValid = false ∧ t = nextInput s) := by
  rcases step_cases h with ⟨hr', -⟩ | ⟨-, hb', -⟩ | ⟨-, -, hv, i, hi, hexec⟩ | ⟨-, -, hv, rfl⟩
  · simp [hr] at hr'
  · simp [hb] at hb'
  · rw [decodeCommand_ok hi] at hexec
    rcases exec_command_idle (s := nextInput s) hb hexec with rfl | ⟨h7, rfl⟩
    · exact .inl ⟨hv, rfl⟩
    · exact .inr (.inl ⟨_, _, h7, hv, rfl⟩)
  · exact .inr (.inr ⟨hv, rfl⟩)

end Sys2Proof.Machine
end

section
/-! PROOFS. The statements about what a step changes and what it leaves unchanged (10_state.md R11 to R16, R24 to R26). -/

namespace Sys2Proof.Machine

/-- Settles O15: a frame step of a busy block is a row of the step table (`exec_frameWrite_busy`,
`exec_frameRead_busy`), and what a row keeps is said by the lemmas about `frameStep`. -/
theorem frameStepsLeaveTheRestAlone : Obligations.FrameStepsLeaveTheRestAlone := by
  intro s t d r v hb
  rw [exec_frameWrite_busy hb, exec_frameRead_busy hb]
  refine ⟨frameStep_write_samples_nothing rfl, fun h => ?_⟩
  obtain ⟨x, hx⟩ : ∃ x, frameStep d x s = .next t := h.elim (⟨_, ·⟩) (⟨_, ·⟩)
  obtain ⟨hcfg, hop, hdev, hreg, hval, hval2, hoe, hin⟩ := frameStep_sameCommand hx
  refine ⟨hcfg, hop, hdev, hreg, hval, hval2, hoe, hin, fun ht => ?_, fun ht => ?_, frameStep_trace hx⟩
  · rcases frameStep_response hx with ⟨-, hresp⟩ | ⟨hidle, -⟩
    · exact hresp
    · simp [ht] at hidle
  · rcases frameStep_response hx with ⟨hbusy, -⟩ | ⟨-, hend⟩
    · simp [ht, hb] at hbusy
    · exact hend

/-- Settles O40: a busy step is a row (`frameStep_trace`), and rejecting, accepting and waiting make no line event. -/
theorem oneLineEventPerBusyStep : Obligations.OneLineEventPerBusyStep := by
  intro s t hr h
  refine ⟨fun hb => ?_, fun hb => ?_⟩
  · obtain ⟨x, -, hrow⟩ := step_busy_cases hb hr h
    exact frameStep_trace (s := nextInput s) hrow
  · rcases step_idle_cases hr hb h with ⟨-, rfl⟩ | ⟨op, a, -, -, rfl⟩ | ⟨-, rfl⟩ <;> rfl

/-- Settles O41, by the four kinds of step. -/
theorem stepKeepsTheConfiguration : Obligations.StepKeepsTheConfiguration := by
  intro s t h
  cases hr : (hostPins s).rst with
  | true =>
    rw [step_reset hr] at h
    exact (Host.Outcome.next.inj h) ▸ rfl
  | false =>
    cases hb : s.busy with
    | true =>
      obtain ⟨x, -, hrow⟩ := step_busy_cases hb hr h
      exact (frameStep_sameCommand hrow).cfg
    | false => rcases step_idle_cases hr hb h with ⟨-, rfl⟩ | ⟨op, a, -, -, rfl⟩ | ⟨-, rfl⟩ <;> rfl

/-- Settles O42: a busy step is a row, which keeps the latches (`frameStep_sameCommand`) and, unless it completes the
command, the response (`frameStep_response`); of the steps of an idle block only an accept, which sets `BUSY`, writes the
latches, and only waiting has no command. -/
theorem responseHoldsBetweenCompletions : Obligations.ResponseHoldsBetweenCompletions := by
  intro s t hr h
  cases hb : s.busy with
  | true =>
    obtain ⟨x, -, hrow⟩ := step_busy_cases hb hr h
    obtain ⟨-, hop, hdev, hreg, hval, hval2, -, -⟩ := frameStep_sameCommand hrow
    refine ⟨fun hbusy _ => ?_, fun _ => ⟨hop, hdev, hreg, hval, hval2⟩⟩
    rcases frameStep_response hrow with ⟨-, hresp⟩ | ⟨hidle, -⟩
    · exact hresp
    · simp [hbusy] at hidle
  | false =>
    rcases step_idle_cases hr hb h with ⟨hv, rfl⟩ | ⟨op, a, -, hv, rfl⟩ | ⟨hv, rfl⟩
    · exact ⟨fun _ hc => by simp [hv] at hc, fun _ => ⟨rfl, rfl, rfl, rfl, rfl⟩⟩
    · exact ⟨fun hbusy => by simp at hbusy, fun hc => by simp at hc⟩
    · exact ⟨fun _ _ => ⟨rfl, rfl, rfl⟩, fun _ => ⟨rfl, rfl, rfl, rfl, rfl⟩⟩

end Sys2Proof.Machine
end

section
/-! PROOFS. The engine's steps through a whole frame are the procedures of 40_codec.md R84 to R86, phase by phase. -/

namespace Sys2Proof.Machine

/-! ### The procedure's state, and the engine at a position in the frame -/

/-- `u` is what the line events of the procedure have made of `s` so far in its transaction `x`: still busy in `x`, with
the configuration, `A_DEV` and the host's pins of `s`. -/
structure InTransaction (s : State) (x : Transaction) (u : State) : Prop where
  busy : u.busy = true
  transaction : currentTransaction u = some x
  cfg : u.cfg = s.cfg
  aDev : u.aDev = s.aDev
  hostIn : u.hostIn = s.hostIn

/-- The engine `m` steps after the first event of a frame: the procedure's state `u`, with `SEQ` at a position and the
pin records of `m` steps used up. -/
def engineAt (m : Nat) (ph : Phase) (n : Nat) (sub : Sub) (u : State) : State := dropInputs m (enter ph n sub u)

/-- `m` steps after the first event of the frame of `x` that starts in `s`, the engine is at the given position and the
procedure's state is `u`. -/
structure FrameReaches (s : State) (x : Transaction) (m : Nat) (ph : Phase) (n : Nat) (sub : Sub) (u : State) : Prop where
  inTransaction : InTransaction s x u
  run_eq : run m (enter .pre s.cfg.preambleLen .data (dirOutput s)) = .next (engineAt m ph n sub u)

section
variable {s u : State} {x : Transaction}

theorem NoReset.engineAt {m k : Nat} (hr : NoReset (m + k) s) (hu : InTransaction s x u) (ph : Phase) (n : Nat)
    (sub : Sub) : NoReset k (engineAt m ph n sub u) :=
  hr.drop (congrArg (List.drop m) hu.hostIn)

theorem InTransaction.turnAround (hu : InTransaction s x u) : InTransaction s x (clearShr (dirInput u)) :=
  ⟨hu.busy, hu.transaction, hu.cfg, hu.aDev, hu.hostIn⟩

theorem InTransaction.emitBit (hu : InTransaction s x u) (b : Level) : InTransaction s x (emitBit b u) :=
  ⟨hu.busy, hu.transaction, hu.cfg, hu.aDev, hu.hostIn⟩

theorem InTransaction.clockPulse (hu : InTransaction s x u) : InTransaction s x (clockPulse u) :=
  ⟨hu.busy, hu.transaction, hu.cfg, hu.aDev, hu.hostIn⟩

theorem InTransaction.sampleInto (hu : InTransaction s x u) : InTransaction s x (sampleInto u) := by
  rw [sampleInto_eq]
  exact ⟨hu.busy, hu.transaction, hu.cfg, hu.aDev, hu.hostIn⟩

theorem InTransaction.emitField (hu : InTransaction s x u) (f n : Nat) : InTransaction s x (emitField f n u) := by
  induction n generalizing u with
  | zero => exact hu
  | succ n ih => exact ih (hu.emitBit _)

theorem InTransaction.repeatOp {op : State → State} (hop : ∀ u, InTransaction s x u → InTransaction s x (op u))
    (hu : InTransaction s x u) (n : Nat) : InTransaction s x (repeatOp op n u) := by
  induction n generalizing u with
  | zero => exact hu
  | succ n ih => exact ih (hop u hu)

/-! ### The phases of a frame -/

theorem frameReaches_preamble (hb : s.busy = true) (hx : currentTransaction s = some x) :
    FrameReaches s x 0 .pre s.cfg.preambleLen .data (dirOutput s) :=
  ⟨⟨hb, hx, rfl, rfl, rfl⟩, rfl⟩

/-- A driven phase is `EmitField` (40_codec.md R83, R88). -/
theorem FrameReaches.driven {m w f n : Nat} {ph next : Phase} (h : FrameReaches s x m ph w .data u)
    (hs : slotOf s.cfg s.aDev x ph = .driven ⟨w, f⟩ next n) (hw : 1 ≤ w) (hr : NoReset (m + 3 * w) s) :
    FrameReaches s x (m + 3 * w) next n .data (emitField f w u) := by
  obtain ⟨hu, hrun⟩ := h
  refine ⟨hu.emitField f w, (run_add hrun).trans ?_⟩
  obtain ⟨c, rfl⟩ : ∃ c, w = c + 1 := ⟨w - 1, by omega⟩
  have hslot : slotOf u.cfg u.aDev x ph = .driven ⟨c + 1, f⟩ next n := by rw [hu.cfg, hu.aDev, hs]
  have hphase := driven_phase (s := engineAt m ph (c + 1) .data u) hu.busy hu.transaction hslot rfl rfl
    (hr.engineAt hu ph (c + 1) .data)
  rw [hphase]
  simp [engineAt, emitField_eq, enter, dropInputs]

/-- A field of ones is the preamble's loop (40_codec.md R84, R88). -/
theorem emitField_ones (f n : Nat) (hf : ∀ i < n, f.testBit i = true) (s : State) :
    emitField f n s = repeatOp (emitBit true) n s := by
  induction n generalizing s with
  | zero => rfl
  | succ n ih => rw [emitField, repeatOp, hf n (by omega), ih (fun i hi => hf i (by omega))]

theorem encodeFrame_eq_fields (op2 : BitVec 2) (d r : Addr5) (s : State) :
    encodeFrame op2 d r s =
      emitField r.toNat 5 (emitField d.toNat 5 (emitField op2.toNat 2 (emitField startField.toNat 2
        (emitField (2 ^ s.cfg.preambleLen - 1) s.cfg.preambleLen (dirOutput s))))) := by
  rw [encodeFrame, ← emitField_ones (2 ^ s.cfg.preambleLen - 1) _ fun i hi => by simp [Nat.testBit_two_pow_sub_one, hi]]

/-- The phases up to the register address are `EncodeFrame` (40_codec.md R84, R88). -/
theorem frameReaches_header {ph : Phase} {n : Nat} {op2 : BitVec 2} (hb : s.busy = true)
    (hx : currentTransaction s = some x) (hop : slotOf s.cfg s.aDev x .op = .driven ⟨2, op2.toNat⟩ .phyad 5)
    (hreg : slotOf s.cfg s.aDev x .regad = .driven ⟨5, x.reg.toNat⟩ ph n)
    (hr : NoReset (3 * s.cfg.preambleLen + 42) s) :
    FrameReaches s x (3 * s.cfg.preambleLen + 42) ph n .data (encodeFrame op2 s.aDev x.reg s) := by
  have hP := preambleLen_ge s.cfg
  have hpre := (frameReaches_preamble hb hx).driven rfl (by omega) (hr.mono (by omega))
  have hst := hpre.driven rfl (by omega) (hr.mono (by omega))
  have hop2 := hst.driven hop (by omega) (hr.mono (by omega))
  have hphy := hop2.driven rfl (by omega) (hr.mono (by omega))
  have hend := hphy.driven hreg (by omega) (hr.mono (by omega))
  rw [← encodeFrame_eq_fields] at hend
  convert hend using 1
  omega

/-- The turnaround window is its clock pulses (40_codec.md R86, R88). -/
theorem FrameReaches.turnaround {m n : Nat} (h : FrameReaches s x m .ta n .rise u)
    (hs : slotOf s.cfg s.aDev x .ta = .turnaround) (hn : 1 ≤ n) (hlow : u.mdcO = false)
    (hr : NoReset (m + 2 * n) s) :
    FrameReaches s x (m + 2 * n) .data 16 .data (repeatOp clockPulse n u) := by
  obtain ⟨hu, hrun⟩ := h
  refine ⟨hu.repeatOp (fun _ h => h.clockPulse) n, (run_add hrun).trans ?_⟩
  obtain ⟨c, rfl⟩ : ∃ c, n = c + 1 := ⟨n - 1, by omega⟩
  have hslot : slotOf u.cfg u.aDev x .ta = .turnaround := by rw [hu.cfg, hu.aDev, hs]
  have hphase := turnaround_phase (s := engineAt m .ta (c + 1) .rise u) hu.busy hu.transaction hslot rfl rfl
    (hr.engineAt hu .ta (c + 1) .rise)
  rw [hphase, repeat_clockPulse_eq _ _ hlow, repeat_clockPulse_eq _ (engineAt m .ta (c + 1) .rise u) hlow]
  simp [engineAt, enter, dropInputs]

/-- The release of a read frame clears `SHR` and turns around (40_codec.md R86, R88). -/
theorem FrameReaches.release_read {m n : Nat} (h : FrameReaches s x m .rel n .data u) (hread : x.read = true)
    (hr : NoReset (m + 1) s) :
    FrameReaches s x (m + 1) .ta s.cfg.taRdClocks .rise (clearShr (dirInput u)) := by
  obtain ⟨hu, hrun⟩ := h
  refine ⟨hu.turnAround, (run_add hrun).trans ?_⟩
  have hstep := step_release_read (s := engineAt m .rel n .data u) hu.busy hu.transaction rfl rfl hread
    (hr.engineAt hu .rel n .data).head
  rw [run_succ hstep, run_zero]
  simp [engineAt, enter, dropInputs, nextInput, clearShr, dirInput, emit, hu.cfg]

/-- The release of a write frame ends it (40_codec.md R85, R88). -/
theorem FrameReaches.release_write {m n : Nat} (h : FrameReaches s x m .rel n .data u) (hread : x.read = false)
    (hr : NoReset (m + 1) s) :
    run (m + 1) (enter .pre s.cfg.preambleLen .data (dirOutput s)) =
      .next (commandEnd (dropInputs (m + 1) (dirInput u))) := by
  obtain ⟨hu, hrun⟩ := h
  have hx : currentTransaction (dropInputs (m + 1) (dirInput u)) = some x := hu.transaction
  have hstep := step_release_write (s := engineAt m .rel n .data u) hu.busy hu.transaction rfl rfl hread
    (hr.engineAt hu .rel n .data).head
  have hpos : dirInput (nextInput (engineAt m .rel n .data u)) =
      enter .rel n .data (dropInputs (m + 1) (dirInput u)) := by
    simp [engineAt, enter, dropInputs, nextInput, dirInput, emit]
  have hx' : currentTransaction (enter .rel n .data (dropInputs (m + 1) (dirInput u))) = some x := hu.transaction
  rw [hpos, endOfTransaction_some hx', commandEnd_enter hx] at hstep
  rw [run_add hrun, run_succ hstep, run_zero]

/-- The samples end a read frame (40_codec.md R86, R87, R88). -/
theorem FrameReaches.samples {m : Nat} (h : FrameReaches s x m .data 16 .data u)
    (hs : slotOf s.cfg s.aDev x .data = .sample) (hr : NoReset (m + 48) s) :
    run (m + 48) (enter .pre s.cfg.preambleLen .data (dirOutput s)) =
      .next (commandEnd (dropInputs (m + 48) (repeatOp sampleInto 16 u))) := by
  obtain ⟨hu, hrun⟩ := h
  have hx : currentTransaction (dropInputs (m + 48) (repeatOp sampleInto 16 u)) = some x :=
    (hu.repeatOp (fun _ h => h.sampleInto) 16).transaction
  have hslot : slotOf u.cfg u.aDev x .data = .sample := by rw [hu.cfg, hu.aDev, hs]
  have hphase := sample_phase (s := engineAt m .data 16 .data u) hu.busy hu.transaction hslot rfl rfl
    (hr.engineAt hu .data 16 .data)
  have hpos : dropInputs 48 (repeatOp sampleInto 16 (engineAt m .data 16 .data u)) =
      enter .data 16 .data (dropInputs (m + 48) (repeatOp sampleInto 16 u)) := by
    rw [repeat_sampleInto_eq, repeat_sampleInto_eq]
    simp [engineAt, enter, dropInputs]
  rw [run_add hrun, hphase, hpos, commandEnd_enter hx]

end

/-! ### The two frames -/

theorem slotOf_write {c : Config} {d : Addr5} {x : Transaction} (h : x.read = false) :
    slotOf c d x .op = .driven ⟨2, opWrite.toNat⟩ .phyad 5 ∧
    slotOf c d x .regad = .driven ⟨5, x.reg.toNat⟩ .ta 2 ∧
    slotOf c d x .ta = .driven ⟨2, c.taWr.toNat⟩ .data 16 ∧
    slotOf c d x .data = .driven ⟨16, x.data.toNat⟩ .rel 0 := by
  simp [slotOf, h]

theorem slotOf_read {c : Config} {d : Addr5} {x : Transaction} (h : x.read = true) :
    slotOf c d x .op = .driven ⟨2, opRead.toNat⟩ .phyad 5 ∧
    slotOf c d x .regad = .driven ⟨5, x.reg.toNat⟩ .rel 0 ∧
    slotOf c d x .ta = .turnaround ∧ slotOf c d x .data = .sample := by
  simp [slotOf, h]

/-- The first event of a frame is its `DIR(MDIO, Output)`, whichever transaction it is (40_codec.md R84, R88). -/
theorem frameStep_start {s : State} {k : Fin 3} (h : s.seq = ⟨k, .start, 0, .data⟩) (d : Addr5) (x : Transaction) :
    frameStep d x s = .next (enter .pre s.cfg.preambleLen .data (dirOutput s)) := by
  simp [frameStep, slotOf, startStep, h]

/-- `EncodeFrame` leaves the clock low (40_codec.md R84). -/
theorem encodeFrame_mdcO (op2 : BitVec 2) (d r : Addr5) (s : State) : (encodeFrame op2 d r s).mdcO = false := by
  rw [encodeFrame_eq]

/-- Settles O19: the phases of the table in their order are the calls of `WriteFrame` in theirs (`FrameReaches.driven`
for each field), and the release runs the end-of-transaction logic. -/
theorem engineRefinesWriteFrame : Obligations.EngineRefinesWriteFrame := by
  intro s k r v hb hseq hx hr
  refine ⟨_, (exec_frameWrite_busy hb s.aDev r v).trans (frameStep_start hseq _ _), ?_⟩
  obtain ⟨hop, hreg, hta, hdata⟩ := slotOf_write (c := s.cfg) (d := s.aDev) (x := ⟨false, r, v⟩) rfl
  have hheader := frameReaches_header hb hx hop hreg (hr.mono (by omega))
  have hturn := hheader.driven hta (by omega) (hr.mono (by omega))
  have hvalue := hturn.driven hdata (by omega) (hr.mono (by omega))
  have hend := hvalue.release_write rfl (hr.mono (by omega))
  rw [show 3 * s.cfg.preambleLen + 97 = 3 * s.cfg.preambleLen + 42 + 3 * 2 + 3 * 16 + 1 by omega, hend, writeFrame]

/-- Settles O20: the header is `EncodeFrame`, the release and the turnaround are the clock pulses of `ReadFrame`, and the
sixteen samples end in the end-of-transaction logic. -/
theorem engineRefinesReadFrame : Obligations.EngineRefinesReadFrame := by
  intro s k x hb hseq hx hread hr
  refine ⟨_, (exec_frameRead_busy hb s.aDev x.reg).trans (frameStep_start hseq _ _), ?_⟩
  obtain ⟨hop, hreg, hta, hdata⟩ := slotOf_read (c := s.cfg) (d := s.aDev) hread
  have hheader := frameReaches_header hb hx hop hreg (hr.mono (by omega))
  have hrelease := hheader.release_read hread (hr.mono (by omega))
  have hturn := hrelease.turnaround hta (taRdClocks_ge s.cfg) (by simp [encodeFrame_mdcO]) (hr.mono (by omega))
  have hend := hturn.samples hdata (hr.mono (by omega))
  rw [show 3 * s.cfg.preambleLen + 91 + 2 * s.cfg.taRdClocks =
    3 * s.cfg.preambleLen + 42 + 1 + 2 * s.cfg.taRdClocks + 48 by omega, hend, readFrame]

end Sys2Proof.Machine
end

section
/-! PROOFS. The invariant of 10_state.md R33 and the legal line trace, over every step. -/

namespace Sys2Proof.Machine

/-! ### Where the engine may stand, slot by slot -/

section
variable {s : State} {x : Transaction}

theorem framePosition_start (hp : s.seq.ph = .start) :
    FramePosition s x ↔ s.seq.cnt = 0 ∧ s.seq.sub = .data ∧ s.mdcO = false ∧ s.mdioOe = false := by
  simp [FramePosition, slotOf, hp]

theorem framePosition_driven {f : Field} {ph : Phase} {n : Nat}
    (hs : slotOf s.cfg s.aDev x s.seq.ph = .driven f ph n) :
    FramePosition s x ↔
      1 ≤ s.seq.cnt ∧ s.seq.cnt ≤ f.width ∧ s.mdcO = decide (s.seq.sub = .fall) ∧ s.mdioOe = true := by
  simp [FramePosition, hs]

theorem framePosition_release (hp : s.seq.ph = .rel) :
    FramePosition s x ↔ s.seq.cnt = 0 ∧ s.seq.sub = .data ∧ s.mdcO = false ∧ s.mdioOe = true := by
  simp [FramePosition, slotOf, hp]

theorem framePosition_turnaround (hs : slotOf s.cfg s.aDev x s.seq.ph = .turnaround) :
    FramePosition s x ↔
      1 ≤ s.seq.cnt ∧ s.seq.cnt ≤ s.cfg.taRdClocks ∧ s.seq.sub ≠ .data ∧ s.mdcO = decide (s.seq.sub = .fall) ∧
        s.mdioOe = false := by
  simp [FramePosition, hs]

theorem framePosition_sample (hs : slotOf s.cfg s.aDev x s.seq.ph = .sample) :
    FramePosition s x ↔
      1 ≤ s.seq.cnt ∧ s.seq.cnt ≤ 16 ∧ s.mdcO = decide (s.seq.sub = .fall) ∧ s.mdioOe = false := by
  simp [FramePosition, hs]

/-- After a driven phase comes a driven phase at its first bit, or the release (40_codec.md R88). -/
theorem slotOf_after_driven {c : Config} {d : Addr5} {p ph : Phase} {f : Field} {n : Nat}
    (h : slotOf c d x p = .driven f ph n) :
    (1 ≤ n ∧ ∃ v ph' n', slotOf c d x ph = .driven ⟨n, v⟩ ph' n') ∨ (ph = .rel ∧ n = 0) := by
  cases hread : x.read <;> cases p <;> simp [slotOf, hread] at h
  all_goals
    obtain ⟨-, rfl, rfl⟩ := h
    simp [slotOf, hread]

theorem slotOf_data_of_turnaround {c : Config} {d : Addr5} {p : Phase} (h : slotOf c d x p = .turnaround) :
    slotOf c d x .data = .sample := by
  cases p <;> cases hread : x.read <;> simp [slotOf, hread] at h ⊢

/-! ### The line event of a row, and where the row leads -/

/-- The pin registers. -/
def pinsOf (s : State) : Pins := ⟨s.mdcO, s.mdioOe, s.mdioO⟩

/-- The lines as the end of a frame leaves them, `MDC_O` low and the data line released (40_codec.md R90). -/
def LinesReleased (s : State) : Prop := s.mdcO = false ∧ s.mdioOe = false

/-- A row of the table taken where the engine may stand: its line event is legal and leaves the pins of `u`, and either
the engine may stand where the row leads, or the frame has ended, the lines released. -/
theorem frameStep_positioned {t : State} (hp : FramePosition s x) (h : frameStep s.aDev x s = .next t) :
    ∃ e u, RowStep s e u ∧ (pinsOf s).after e = some (pinsOf u) ∧
      ((t = u ∧ FramePosition u x) ∨
        (LinesReleased u ∧ (∃ y, currentTransaction u = some y) ∧ t = commandEnd u)) := by
  rcases frameStep_cases h with ⟨hph, hsub, rfl⟩ | ⟨f, ph, n, hs, hrow⟩ | ⟨hph, hsub, hrow⟩ | ⟨hs, hrow⟩ | ⟨hs, hrow⟩
  · obtain ⟨-, -, hc, hd⟩ := (framePosition_start hph).mp hp
    have hpre : slotOf s.cfg s.aDev x .pre = .driven ⟨s.cfg.preambleLen, 2 ^ s.cfg.preambleLen - 1⟩ .st 2 := rfl
    have hP := preambleLen_ge s.cfg
    refine ⟨_, _, (rowStep_dirOutput s).enter .., by simp [Pins.after, pinsOf, hc, hd], .inl ⟨rfl, ?_⟩⟩
    exact Iff.mpr (framePosition_driven hpre) (by simp [hc]; omega)
  · obtain ⟨hn, hw, hc, hd⟩ := (framePosition_driven hs).mp hp
    rcases hrow with ⟨hsub, -, rfl⟩ | ⟨hsub, rfl⟩ | ⟨hsub, hmore, rfl⟩ | ⟨hsub, hlast, rfl⟩
    · refine ⟨_, _, (rowStep_wrMdio _ s).enter .., by simp [Pins.after, pinsOf, hc, hd, hsub], .inl ⟨rfl, ?_⟩⟩
      exact Iff.mpr (framePosition_driven hs) (by simp [hn, hw, hc, hd, hsub])
    · refine ⟨_, _, (rowStep_wrMdc true s).enter .., by simp [Pins.after, pinsOf, hc, hsub], .inl ⟨rfl, ?_⟩⟩
      exact Iff.mpr (framePosition_driven hs) (by simp [hn, hw, hd])
    · refine ⟨_, _, (rowStep_wrMdc false s).enter .., by simp [Pins.after, pinsOf, hc, hsub], .inl ⟨rfl, ?_⟩⟩
      exact Iff.mpr (framePosition_driven hs) (by simp [hd]; omega)
    · refine ⟨_, _, (rowStep_wrMdc false s).enter .., by simp [Pins.after, pinsOf, hc, hsub], .inl ⟨rfl, ?_⟩⟩
      rcases slotOf_after_driven hs with ⟨hn1, v, ph', n', hs'⟩ | ⟨rfl, rfl⟩
      · exact Iff.mpr (framePosition_driven hs') (by simp [hd, hn1])
      · exact Iff.mpr (framePosition_release rfl) (by simp [hd])
  · obtain ⟨-, -, hc, hd⟩ := (framePosition_release hph).mp hp
    rcases hrow with ⟨hread, rfl⟩ | ⟨-, hy, rfl⟩
    · have hta : slotOf s.cfg s.aDev x .ta = .turnaround := by simp [slotOf, hread]
      refine ⟨_, _, (rowStep_turnaround s).enter .., by simp [Pins.after, pinsOf, hc, hd], .inl ⟨rfl, ?_⟩⟩
      exact Iff.mpr (framePosition_turnaround hta) (by simpa [hc] using taRdClocks_ge s.cfg)
    · exact ⟨_, _, rowStep_dirInput s, by simp [Pins.after, pinsOf, hc, hd], .inr ⟨⟨hc, rfl⟩, hy, rfl⟩⟩
  · obtain ⟨hn, hw, -, hc, hd⟩ := (framePosition_turnaround hs).mp hp
    rcases hrow with ⟨hsub, rfl⟩ | ⟨hsub, hmore, rfl⟩ | ⟨hsub, hlast, rfl⟩
    · refine ⟨_, _, (rowStep_wrMdc true s).enter .., by simp [Pins.after, pinsOf, hc, hsub], .inl ⟨rfl, ?_⟩⟩
      exact Iff.mpr (framePosition_turnaround hs) (by simp [hn, hw, hd])
    · refine ⟨_, _, (rowStep_wrMdc false s).enter .., by simp [Pins.after, pinsOf, hc, hsub], .inl ⟨rfl, ?_⟩⟩
      exact Iff.mpr (framePosition_turnaround hs) (by simp [hd]; omega)
    · have hdata : slotOf s.cfg s.aDev x .data = .sample := slotOf_data_of_turnaround hs
      refine ⟨_, _, (rowStep_wrMdc false s).enter .., by simp [Pins.after, pinsOf, hc, hsub], .inl ⟨rfl, ?_⟩⟩
      exact Iff.mpr (framePosition_sample hdata) (by simp [hd])
  · obtain ⟨hn, hw, hc, hd⟩ := (framePosition_sample hs).mp hp
    rcases hrow with ⟨hsub, rfl⟩ | ⟨hsub, rfl⟩ | ⟨hsub, hmore, rfl⟩ | ⟨hsub, -, hy, rfl⟩
    · refine ⟨_, _, (rowStep_sample s).enter .., by simp [Pins.after, pinsOf, hc, hd, hsub], .inl ⟨rfl, ?_⟩⟩
      exact Iff.mpr (framePosition_sample hs) (by simp [hn, hw, hc, hd, hsub])
    · refine ⟨_, _, (rowStep_wrMdc true s).enter .., by simp [Pins.after, pinsOf, hc, hsub], .inl ⟨rfl, ?_⟩⟩
      exact Iff.mpr (framePosition_sample hs) (by simp [hn, hw, hd])
    · refine ⟨_, _, (rowStep_wrMdc false s).enter .., by simp [Pins.after, pinsOf, hc, hsub], .inl ⟨rfl, ?_⟩⟩
      exact Iff.mpr (framePosition_sample hs) (by simp [hd]; omega)
    · exact ⟨_, _, rowStep_wrMdc false s, by simp [Pins.after, pinsOf, hc, hsub], .inr ⟨⟨rfl, hd⟩, hy, rfl⟩⟩

end

/-! ### The invariant -/

theorem PollsBounded.of_idle {s t : State} (h : PollsBounded s) (hcfg : t.cfg = s.cfg) (hpolls : t.polls = s.polls)
    (hb : t.busy = false) : PollsBounded t := by
  intro k hk
  rw [hcfg] at hk
  rw [hpolls]
  exact ⟨(h k hk).1, fun hbusy => by simp [hb] at hbusy⟩

/-- In an idle block the invariant is about the lines and the limit only. -/
theorem inv_of_ready {s : State} (hr : Ready s) (hp : PollsBounded s) : Inv s where
  clockDriven := hr.lines.mdcOe
  idle := fun _ => hr
  busyNotDone := fun hb => by simp [hr.busy] at hb
  position := fun hb => by simp [hr.busy] at hb
  polls := hp

/-- `POLLS` is below a limit when it is 0 (00_scope.md R5). -/
theorem pollsBounded_of_zero {s : State} (h : s.polls = 0) : PollsBounded s := by
  intro k hk
  have hk1 := resetPollLimit_ge hk
  rw [h]
  exact ⟨by omega, fun _ => by omega⟩

theorem inv_hardwareReset (s : State) : Inv (hardwareReset s) :=
  inv_of_ready ⟨rfl, rfl, rfl, rfl, rfl⟩ (pollsBounded_of_zero rfl)

/-- At the start of a frame of a transaction that there is, the invariant asks for released lines. -/
theorem inv_of_start {s : State} (hseq : ∃ k, s.seq = Seq.startOf k) (hx : (currentTransaction s).isSome = true)
    (hoe : s.mdcOe = true) (hl : LinesReleased s) (hb : s.busy = true) (hd : s.done = false)
    (hp : PollsBounded s) : Inv s where
  clockDriven := hoe
  idle := fun hidle => by simp [hb] at hidle
  busyNotDone := fun _ => hd
  position := fun _ => by
    obtain ⟨k, hk⟩ := hseq
    obtain ⟨x, hx⟩ := Option.isSome_iff_exists.mp hx
    exact ⟨x, hx, Iff.mpr (framePosition_start (by simp [hk])) ⟨by simp [hk], by simp [hk], hl⟩⟩
  polls := hp

/-- Every command but the reserved code has a first transaction (30_encoding.md R66). -/
theorem currentTransaction_first {s : State} (hop : s.aOp ≠ 7) (hk : s.seq.xact = 0) :
    (currentTransaction s).isSome = true := by
  have h8 : s.aOp = 0 ∨ s.aOp = 1 ∨ s.aOp = 2 ∨ s.aOp = 3 ∨ s.aOp = 4 ∨ s.aOp = 5 ∨ s.aOp = 6 := by
    generalize s.aOp = op at hop
    revert op
    decide
  rcases h8 with h | h | h | h | h | h | h <;>
    simp [currentTransaction, h, xactRdreg, xactWrreg, xactRdexp, xactWrexp, xactChkdev, xactRstdev, xactLink, hk]

/-- An accept leaves the engine at the start of the first frame (10_state.md R24). -/
theorem inv_beginCommand {s : State} {op : BitVec 3} {a : CmdOperands} (hr : Ready s) (hop : op ≠ 7) :
    Inv (beginCommand (latch op a (clearDone s))) :=
  inv_of_start ⟨0, rfl⟩ (currentTransaction_first hop rfl) hr.lines.mdcOe ⟨hr.lines.mdcO, hr.lines.mdioOe⟩ rfl rfl
    (pollsBounded_of_zero rfl)

/-- `POLLS` stays below a limit while the command goes on, and within it where the command ends (30_encoding.md R72,
43_device_ops.md R121). -/
theorem pollsBounded_commandEnd {s : State} {x : Transaction} (hx : currentTransaction s = some x)
    (hb : s.busy = true) (hp : PollsBounded s) : PollsBounded (commandEnd s) := by
  intro k hk
  rw [(commandEnd_sameCommand hx).cfg] at hk
  have hlt : s.polls < k := (hp k hk).2 hb
  rcases commandEnd_cases hx with ⟨j, u, e, -, hu⟩ | ⟨v, u, e, hu⟩ | ⟨e, -, -⟩ <;> rw [e]
  · rcases hu with rfl | ⟨rfl, -⟩ | ⟨rfl, -, hlimit⟩
    · exact ⟨hlt.le, fun _ => hlt⟩
    · exact ⟨hlt.le, fun _ => hlt⟩
    · have hne : s.polls + 1 ≠ k := fun h => hlimit (h ▸ hk)
      exact ⟨hlt, fun _ => lt_of_le_of_ne hlt hne⟩
  · rcases hu with rfl | ⟨rfl, -⟩ | ⟨rfl, -⟩
    · exact ⟨hlt.le, fun h => by simp at h⟩
    · exact ⟨hlt.le, fun h => by simp at h⟩
    · exact ⟨hlt, fun h => by simp at h⟩
  · exact ⟨hlt, fun h => by simp at h⟩

/-- A frame that ends with the lines released leaves the block at the start of the next frame, or ready. -/
theorem inv_commandEnd {s : State} {x : Transaction} (hx : currentTransaction s = some x) (hoe : s.mdcOe = true)
    (hl : LinesReleased s) (hb : s.busy = true) (hd : s.done = false) (hp : PollsBounded s) : Inv (commandEnd s) := by
  have hp' := pollsBounded_commandEnd hx hb hp
  have hoe' : (commandEnd s).mdcOe = true := (commandEnd_sameCommand hx).mdcOe.trans hoe
  have hl' : LinesReleased (commandEnd s) :=
    ⟨(commandEnd_sameLines hx).mdcO.trans hl.1, (commandEnd_sameLines hx).mdioOe.trans hl.2⟩
  rcases commandEnd_cases hx with ⟨k, u, e, hnext, hu⟩ | ⟨v, u, e, -⟩ | ⟨e, -, -⟩ <;> rw [e] at hp' hoe' hl' ⊢
  · have hresp : u.busy = true ∧ u.done = false := by
      rcases hu with rfl | ⟨rfl, -⟩ | ⟨rfl, -⟩ <;> exact ⟨hb, hd⟩
    exact inv_of_start ⟨k, rfl⟩ hnext hoe' hl' hresp.1 hresp.2 hp'
  · exact inv_of_ready ⟨rfl, rfl, hoe', hl'.1, hl'.2⟩ hp'
  · exact inv_of_ready ⟨rfl, rfl, hoe', hl'.1, hl'.2⟩ hp'

theorem PollsBounded.of_row {s u : State} {e : LineEvent} (h : PollsBounded s) (hu : RowStep s e u) :
    PollsBounded u := by
  intro k hk
  rw [hu.command.cfg] at hk
  rw [hu.progress.polls, hu.progress.busy]
  exact h k hk

/-- A row keeps the invariant of a busy block. -/
theorem inv_frameStep {s t : State} {x : Transaction} (hi : Inv s) (hb : s.busy = true)
    (hx : currentTransaction s = some x) (hp : FramePosition s x) (h : frameStep s.aDev x s = .next t) : Inv t := by
  obtain ⟨e, u, hu, -, hend⟩ := frameStep_positioned hp h
  have hbusy : u.busy = true := hu.progress.busy.trans hb
  have hdone : u.done = false := hu.progress.done.trans (hi.busyNotDone hb)
  have hoe : u.mdcOe = true := hu.command.mdcOe.trans hi.clockDriven
  have hpolls : PollsBounded u := hi.polls.of_row hu
  have hxu : currentTransaction u = some x := (hu.command.currentTransaction_eq hu.progress.xact).trans hx
  rcases hend with ⟨rfl, hpos⟩ | ⟨hl, -, rfl⟩
  · exact ⟨hoe, fun hidle => by simp [hbusy] at hidle, fun _ => hdone, fun _ => ⟨x, hxu, hpos⟩, hpolls⟩
  · exact inv_commandEnd hxu hoe hl hbusy hdone hpolls

/-- The pins of the host are no part of the invariant. -/
theorem Inv.nextInput {s : State} (h : Inv s) : Inv (nextInput s) where
  clockDriven := h.clockDriven
  idle := fun hb => ⟨(h.idle hb).busy, (h.idle hb).seq, (h.idle hb).lines.mdcOe, (h.idle hb).lines.mdcO,
    (h.idle hb).lines.mdioOe⟩
  busyNotDone := h.busyNotDone
  position := h.position
  polls := h.polls

/-- A step of a busy block, from a state that meets the invariant, is a row taken where the engine may stand. -/
theorem Inv.step_busy_cases {s t : State} (hi : Inv s) (hb : s.busy = true) (hr : (hostPins s).rst = false)
    (h : step s = .next t) :
    ∃ x, currentTransaction (Machine.nextInput s) = some x ∧ FramePosition (Machine.nextInput s) x ∧
      frameStep s.aDev x (Machine.nextInput s) = .next t := by
  obtain ⟨x, hx, hrow⟩ := Machine.step_busy_cases hb hr h
  obtain ⟨y, hy, hpos⟩ := hi.nextInput.position hb
  obtain rfl : y = x := Option.some.inj (hy.symm.trans hx)
  exact ⟨y, hy, hpos, hrow⟩

/-- Settles O37: reset and accept establish the invariant (`inv_hardwareReset`, `inv_beginCommand`), a row of the step
table keeps it (`inv_frameStep`), and a rejection or a wait leaves an idle block ready. -/
theorem stepKeepsTheInvariant : Obligations.StepKeepsTheInvariant := by
  intro s t hi h
  cases hr : (hostPins s).rst with
  | true =>
    rw [step_reset hr] at h
    cases h
    exact inv_hardwareReset _
  | false =>
    cases hb : s.busy with
    | true =>
      obtain ⟨x, hx, hpos, hrow⟩ := hi.step_busy_cases hb hr h
      exact inv_frameStep hi.nextInput hb hx hpos hrow
    | false =>
      obtain ⟨hidle, hseq, hlines⟩ := hi.nextInput.idle hb
      rcases step_idle_cases hr hb h with ⟨-, rfl⟩ | ⟨op, a, h7, -, rfl⟩ | ⟨-, rfl⟩
      · exact inv_of_ready ⟨hidle, hseq, hlines.mdcOe, hlines.mdcO, hlines.mdioOe⟩ (hi.polls.of_idle rfl rfl hb)
      · exact inv_beginCommand ⟨hidle, hseq, hlines⟩ h7
      · exact hi.nextInput

/-! ### The line trace (10_state.md R21, R22) -/

theorem replay_append (p : Pins) (es : List LineEvent) (e : LineEvent) :
    replay p (es ++ [e]) = (replay p es).bind (·.after e) := by
  induction es generalizing p with
  | nil =>
    simp only [List.nil_append, replay, Option.bind_some]
    cases p.after e <;> rfl
  | cons e' es ih =>
    simp only [List.cons_append, replay]
    cases p.after e' with
    | none => rfl
    | some q => exact ih q

/-- One more legal event keeps the trace legal. -/
theorem TraceLegal.append {s t : State} {e : LineEvent} (h : TraceLegal s) (htrace : t.trace = s.trace ++ [e])
    (hpins : (pinsOf s).after e = some (pinsOf t)) : TraceLegal t := by
  unfold TraceLegal at h ⊢
  rw [htrace, replay_append, h]
  exact hpins

/-- Settles O39: reset empties the trace, the line event of a row is legal where the invariant lets the engine stand
(`frameStep_positioned`), and the other steps make none and leave the pins. -/
theorem stepKeepsTheTraceLegal : Obligations.StepKeepsTheTraceLegal := by
  intro s t hi hl h
  cases hr : (hostPins s).rst with
  | true =>
    rw [step_reset hr] at h
    cases h
    rfl
  | false =>
    cases hb : s.busy with
    | true =>
      obtain ⟨x, -, hpos, hrow⟩ := hi.step_busy_cases hb hr h
      obtain ⟨e, u, hu, hpins, hend⟩ := frameStep_positioned hpos hrow
      have hlegal : TraceLegal u := TraceLegal.append hl hu.trace hpins
      rcases hend with ⟨rfl, -⟩ | ⟨-, ⟨y, hy⟩, rfl⟩
      · exact hlegal
      · obtain ⟨-, -, hmdc, hoe, hmdio, htrace⟩ := commandEnd_sameLines hy
        rwa [TraceLegal, hmdc, hoe, hmdio, htrace]
    | false => rcases step_idle_cases hr hb h with ⟨-, rfl⟩ | ⟨op, a, -, -, rfl⟩ | ⟨-, rfl⟩ <;> exact hl

end Sys2Proof.Machine
end

section
/-! PROOFS. Operand ports that a command ignores (30_encoding.md R66): the latches they leave are never read. -/

namespace Sys2Proof.Machine

/-! ### A state with other latches -/

/-- `s` with other values in `A_REG`, `A_VAL` and `A_VAL2`. -/
def withLatches (r v w : Word16) (s : State) : State := { s with aReg := r, aVal := v, aVal2 := w }

/-- `f` applied to the next state of a result. -/
def mapNext (f : State → State) : Result → Result
  | .next t => .next (f t)
  | .fault r => .fault r
  | .refused r => .refused r

theorem mapNext_eq_next {f : State → State} {x : Result} {u : State} (h : mapNext f x = .next u) :
    ∃ t, x = .next t ∧ f t = u := by
  cases x with
  | next t => exact ⟨t, rfl, Host.Outcome.next.inj h⟩
  | fault r => cases h
  | refused r => cases h

theorem mapNext_congr {f g : State → State} {x : Result} (h : ∀ t, x = .next t → f t = g t) :
    mapNext f x = mapNext g x := by
  cases x with
  | next t => exact congrArg _ (h t rfl)
  | fault r => rfl
  | refused r => rfl

/-- A row writes no latch and reads none: only the end-of-transaction logic can tell two latch contents apart
(40_codec.md R88). -/
theorem frameStep_withLatches {r v w : Word16} {s : State}
    (hend : ∀ t, SameCommand s t →
      endOfTransaction (withLatches r v w t) = mapNext (withLatches r v w) (endOfTransaction t))
    (d : Addr5) (x : Transaction) :
    frameStep d x (withLatches r v w s) = mapNext (withLatches r v w) (frameStep d x s) := by
  have hcfg : (withLatches r v w s).cfg = s.cfg := rfl
  have hseq : (withLatches r v w s).seq = s.seq := rfl
  unfold frameStep
  rw [hcfg, hseq]
  cases slotOf s.cfg d x s.seq.ph with
  | start =>
    simp only [startStep, hseq]
    cases s.seq.sub <;> rfl
  | driven f ph n =>
    simp only [drivenStep, hseq]
    cases s.seq.sub with
    | data =>
      dsimp only
      split <;> rfl
    | rise => rfl
    | fall =>
      dsimp only
      split <;> rfl
  | release =>
    simp only [releaseStep, hseq]
    cases s.seq.sub with
    | data =>
      dsimp only
      split
      · rfl
      · exact hend _ (rowStep_dirInput s).command
    | rise => rfl
    | fall => rfl
  | turnaround =>
    simp only [turnaroundStep, hseq]
    cases s.seq.sub with
    | data => rfl
    | rise => rfl
    | fall =>
      dsimp only
      split <;> rfl
  | sample =>
    simp only [sampleStep, hseq]
    cases s.seq.sub with
    | data => rfl
    | rise => rfl
    | fall =>
      dsimp only
      split
      · rfl
      · exact hend _ (rowStep_wrMdc false s).command
  | absent => rfl

/-- The end-of-transaction logic reads a latch in `CHKDEV` alone (43_device_ops.md R120). -/
theorem commandEnd_withLatches {r v w : Word16} {s : State} (h : s.aOp = 4 → v = s.aVal ∧ w = s.aVal2) :
    commandEnd (withLatches r v w s) = withLatches r v w (commandEnd s) := by
  have hop : (withLatches r v w s).aOp = s.aOp := rfl
  have hseq : (withLatches r v w s).seq = s.seq := rfl
  unfold commandEnd
  rw [hop]
  split
  · rfl
  · rfl
  · simp only [endRdexp, hseq]
    split <;> rfl
  · simp only [endWrexp, hseq]
    split <;> rfl
  · next h4 =>
    obtain ⟨rfl, rfl⟩ := h (BitVec.eq_of_toNat_eq h4)
    have hhigh : idHighMatches (withLatches r s.aVal s.aVal2 s) = idHighMatches s := rfl
    have hcfg : (withLatches r s.aVal s.aVal2 s).cfg = s.cfg := rfl
    simp only [endChkdev, hseq, hhigh, hcfg]
    split
    · split <;> rfl
    · rfl
    · rfl
  · have hreset : resetBit (countPoll (withLatches r v w s)) = resetBit (countPoll s) := rfl
    have hlimit : pollLimitReached (countPoll (withLatches r v w s)) = pollLimitReached (countPoll s) := rfl
    simp only [endRstdev, hseq]
    split
    · rfl
    · simp only [endPoll, hreset, hlimit]
      split
      · rfl
      · split <;> rfl
    · rfl
  · have hlink : linkBit (withLatches r v w s) = linkBit s := rfl
    simp only [endLink, hseq, hlink]
    split
    · split <;> rfl
    · rfl
    · rfl
  · rfl

/-! ### Blanking the ignored latches -/

/-- Blanking writes the three latches, each with 0 or its own value; `CHKDEV` keeps the two it compares. -/
theorem maskIgnored_eq_withLatches (s : State) :
    ∃ r v w, (∀ t, SameCommand s t → maskIgnored t = withLatches r v w t) ∧
      (s.aOp = 4 → v = s.aVal ∧ w = s.aVal2) := by
  refine ⟨(maskIgnored s).aReg, (maskIgnored s).aVal, (maskIgnored s).aVal2, fun t ht => ?_, fun h4 => ?_⟩
  · unfold maskIgnored
    rw [ht.aOp]
    split <;> simp [withLatches, ← ht.aOp, ← ht.aReg, ← ht.aVal, ← ht.aVal2]
  · simp [maskIgnored, h4]

theorem maskIgnored_withLatches (s : State) : ∃ r v w, maskIgnored s = withLatches r v w s := by
  obtain ⟨r, v, w, h, -⟩ := maskIgnored_eq_withLatches s
  exact ⟨r, v, w, h s (.refl s)⟩

/-- No transaction is made of an ignored latch (30_encoding.md R66). -/
theorem currentTransaction_maskIgnored (s : State) : currentTransaction (maskIgnored s) = currentTransaction s := by
  unfold maskIgnored
  split <;> next h =>
    simp [currentTransaction, h, xactRdreg, xactWrreg, xactRdexp, xactWrexp, xactChkdev, xactRstdev, xactLink,
      regadOf, selectWrite, deselectWrite, selectValue]

theorem endOfTransaction_maskIgnored (s : State) :
    endOfTransaction (maskIgnored s) = mapNext maskIgnored (endOfTransaction s) := by
  cases hx : currentTransaction s with
  | none => simp [endOfTransaction, currentTransaction_maskIgnored, hx, mapNext]
  | some x =>
    obtain ⟨r, v, w, hmask, h4⟩ := maskIgnored_eq_withLatches s
    rw [endOfTransaction_some hx, endOfTransaction_some ((currentTransaction_maskIgnored s).trans hx)]
    simp only [mapNext]
    rw [hmask _ (commandEnd_sameCommand hx), hmask s (.refl s), commandEnd_withLatches h4]

theorem endOfTransaction_sameCommand {s t : State} (h : endOfTransaction s = .next t) : SameCommand s t := by
  obtain ⟨⟨x, hx⟩, rfl⟩ := endOfTransaction_next h
  exact commandEnd_sameCommand hx

/-- A row commutes with blanking. -/
theorem frameStep_maskIgnored (d : Addr5) (x : Transaction) (s : State) :
    frameStep d x (maskIgnored s) = mapNext maskIgnored (frameStep d x s) := by
  obtain ⟨r, v, w, hmask, -⟩ := maskIgnored_eq_withLatches s
  have hrow : mapNext maskIgnored (frameStep d x s) = mapNext (withLatches r v w) (frameStep d x s) :=
    mapNext_congr fun t ht => hmask t (frameStep_sameCommand ht)
  rw [hrow, hmask s (.refl s)]
  refine frameStep_withLatches (fun t ht => ?_) d x
  rw [← hmask t ht, endOfTransaction_maskIgnored]
  exact mapNext_congr fun u hu => hmask u (ht.trans (endOfTransaction_sameCommand hu))

/-! ### The accept of two operand tuples -/

/-- A command code has one accept step, whatever the state. -/
theorem exec_command_uniform (op : BitVec 3) (a : CmdOperands) :
    ∃ b, ∀ s, exec (commandOf op a) s = .next (accept op b a s) := by
  have h : op = 0 ∨ op = 1 ∨ op = 2 ∨ op = 3 ∨ op = 4 ∨ op = 5 ∨ op = 6 ∨ op = 7 := by
    revert op
    decide
  rcases h with rfl | rfl | rfl | rfl | rfl | rfl | rfl | rfl <;> exact ⟨_, fun _ => rfl⟩

/-- Two operand tuples, rejected alike, that leave the same latches but for ignored ones. -/
theorem accept_agrees {op : BitVec 3} {bad bad' : Bool} {a b : CmdOperands} {s t : State}
    (h : (.next (accept op bad a s) : Result) = .next t) (hbad : bad = bad')
    (hlatch : ∀ u, maskIgnored (beginCommand (latch op a u)) = maskIgnored (beginCommand (latch op b u))) :
    ∃ u, (.next (accept op bad' b s) : Result) = .next u ∧ maskIgnored u = maskIgnored t := by
  subst hbad
  cases h
  refine ⟨_, rfl, ?_⟩
  unfold accept
  split
  · rfl
  · split
    · rfl
    · exact (hlatch _).symm

/-! ### A step of two states that agree but for ignored latches -/

/-- What a step looks at first: the pins, `BUSY`, the port width and the frame to run. -/
theorem step_inputs_of_maskIgnored {s s' : State} (hm : maskIgnored s = maskIgnored s') :
    hostPins s' = hostPins s ∧ s'.busy = s.busy ∧ s'.cfg = s.cfg ∧ s'.aDev = s.aDev ∧
      currentTransaction s' = currentTransaction s := by
  have hx := congrArg currentTransaction hm
  rw [currentTransaction_maskIgnored, currentTransaction_maskIgnored] at hx
  obtain ⟨r, v, w, h⟩ := maskIgnored_withLatches s
  obtain ⟨r', v', w', h'⟩ := maskIgnored_withLatches s'
  rw [h, h'] at hm
  exact ⟨(congrArg hostPins hm).symm, (congrArg State.busy hm).symm, (congrArg State.cfg hm).symm,
    (congrArg State.aDev hm).symm, hx.symm⟩

theorem maskIgnored_nextInput (s : State) : maskIgnored (nextInput s) = nextInput (maskIgnored s) := by
  unfold maskIgnored
  rw [nextInput_aOp]
  split <;> rfl

theorem maskIgnored_rejected (s : State) : maskIgnored (rejected s) = rejected (maskIgnored s) := by
  have hop : (rejected s).aOp = s.aOp := rfl
  unfold maskIgnored
  rw [hop]
  split <;> rfl

/-- Reset and accept write every latch. -/
theorem hardwareReset_maskIgnored (s : State) : hardwareReset (maskIgnored s) = hardwareReset s := by
  obtain ⟨r, v, w, h⟩ := maskIgnored_withLatches s
  rw [h]
  rfl

theorem beginCommand_maskIgnored (op : BitVec 3) (a : CmdOperands) (s : State) :
    beginCommand (latch op a (clearDone (maskIgnored s))) = beginCommand (latch op a (clearDone s)) := by
  obtain ⟨r, v, w, h⟩ := maskIgnored_withLatches s
  rw [h]
  rfl

/-- A command presented to an idle block is rejected, or overwrites every latch. -/
theorem maskIgnored_accept {s s' : State} (hm : maskIgnored s = maskIgnored s') (hb : s.busy = false)
    (hb' : s'.busy = false) (op : BitVec 3) (bad : Bool) (a : CmdOperands) :
    maskIgnored (accept op bad a s) = maskIgnored (accept op bad a s') := by
  cases bad with
  | true => rw [accept_invalid hb, accept_invalid hb', maskIgnored_rejected, maskIgnored_rejected, hm]
  | false => rw [accept_valid hb, accept_valid hb', ← beginCommand_maskIgnored, hm, beginCommand_maskIgnored]

/-- Agreement but for ignored latches is kept by every step. -/
theorem step_maskIgnored {s s' t : State} (hm : maskIgnored s = maskIgnored s') (h : step s = .next t) :
    ∃ t', step s' = .next t' ∧ maskIgnored t = maskIgnored t' := by
  obtain ⟨hpins, hbusy, hcfg, hdev, hx⟩ := step_inputs_of_maskIgnored hm
  have hm1 : maskIgnored (nextInput s) = maskIgnored (nextInput s') := by
    rw [maskIgnored_nextInput, maskIgnored_nextInput, hm]
  rcases step_cases h with ⟨hr, rfl⟩ | ⟨hr, hb, -⟩ | ⟨hr, hb, hv, i, hi, hexec⟩ | ⟨hr, hb, hv, rfl⟩
  · refine ⟨_, step_reset (hpins ▸ hr), ?_⟩
    rw [← hardwareReset_maskIgnored, hm1, hardwareReset_maskIgnored]
  · obtain ⟨x, hcur, hrow⟩ := step_busy_cases hb hr h
    have hmapped : mapNext maskIgnored (frameStep s.aDev x (nextInput s')) = .next (maskIgnored t) := by
      rw [← frameStep_maskIgnored, ← hm1, frameStep_maskIgnored, hrow, mapNext]
    obtain ⟨t', ht', hmask⟩ := mapNext_eq_next hmapped
    have hstep : step s' = frameStep s'.aDev x (nextInput s') :=
      step_busy (hbusy.trans hb) (hpins ▸ hr) (hx.trans hcur)
    exact ⟨t', by rw [hstep, hdev, ht'], hmask.symm⟩
  · have hstep : step s' = exec i (nextInput s') :=
      step_command (hpins ▸ hr) (hbusy.trans hb) (hpins ▸ hv) (by rw [hcfg, hpins, hi])
    obtain ⟨bad, haccept⟩ := exec_command_uniform (hostPins s).cmd.op (hostPins s).cmd.args
    rw [← decodeCommand_ok hi] at haccept
    rw [haccept] at hexec
    cases hexec
    exact ⟨_, hstep.trans (haccept _), maskIgnored_accept hm1 hb (hbusy.trans hb) _ _ _⟩
  · exact ⟨_, step_wait (hpins ▸ hr) (hbusy.trans hb) (hpins ▸ hv), hm1⟩

/-- Settles O44: a command's validity looks at the ports it uses only, and what it latches from the others is blanked
(`accept_agrees`, command by command); from there `step_maskIgnored` keeps the agreement. -/
theorem ignoredPortsHaveNoEffect : Obligations.IgnoredPortsHaveNoEffect := by
  refine ⟨fun s a b hdev op t h => ⟨?_, ?_, ?_, ?_, ?_, ?_, ?_⟩, fun s s' t => step_maskIgnored⟩
  · rintro rfl hreg
    exact accept_agrees h (by simp [invalidRdreg, badDev, badReg5, hdev, hreg])
      fun u => by simp [maskIgnored, beginCommand, startFrame, latch, hdev, hreg]
  · rintro rfl hreg hval
    exact accept_agrees h (by simp [invalidWrreg, badDev, badReg5, badVal, hdev, hreg, hval])
      fun u => by simp [maskIgnored, beginCommand, startFrame, latch, hdev, hreg, hval]
  · rintro rfl hreg
    exact accept_agrees h (by simp [invalidRdexp, badDev, badReg16, hdev, hreg])
      fun u => by simp [maskIgnored, beginCommand, startFrame, latch, hdev, hreg]
  · rintro rfl hreg hval
    exact accept_agrees h (by simp [invalidWrexp, badDev, badReg16, badVal, hdev, hreg, hval])
      fun u => by simp [maskIgnored, beginCommand, startFrame, latch, hdev, hreg, hval]
  · rintro rfl hval hval2
    exact accept_agrees h (by simp [invalidChkdev, badDev, badVal, badVal2, hdev, hval, hval2])
      fun u => by simp [maskIgnored, beginCommand, startFrame, latch, hdev, hval, hval2]
  · rintro rfl
    exact accept_agrees h (by simp [invalidRstdev, badDev, hdev])
      fun u => by simp [maskIgnored, beginCommand, startFrame, latch, hdev]
  · rintro rfl
    exact accept_agrees h (by simp [invalidLink, badDev, hdev])
      fun u => by simp [maskIgnored, beginCommand, startFrame, latch, hdev]

end Sys2Proof.Machine
end

section
/-! PROOFS. What a step runs (60_exceptions.md R147), and the end-of-transaction logic, command by command. -/

namespace Sys2Proof.Machine

/-! ### Words put in front of the block (log 6) -/

theorem withFetchWord_command (s : State) (w : Nat) :
    s.withFetchWord 8 w = presentCommand ⟨BitVec.ofNat 3 w, ⟨0, 0, 0, 0⟩⟩ s := rfl

theorem withFetchWord_frame (s : State) (w : Nat) : s.withFetchWord 32 w = present (.frame (BitVec.ofNat 32 w)) s := rfl

theorem decodeFrame_ok {t : BitVec 2} {fw : BitVec 32} {i : Instr} (h : decodeFrame t fw = .ok i) :
    (∃ d r, i = .frameRead d r) ∨ (∃ d r v, i = .frameWrite d r v) := by
  unfold decodeFrame at h
  split at h
  · cases h
  · split at h
    · exact .inl ⟨_, _, (Except.ok.inj h).symm⟩
    · split at h
      · split at h
        · exact .inr ⟨_, _, _, (Except.ok.inj h).symm⟩
        · cases h
      · cases h

/-- The direct read that `presentFrame` starts runs the frame it was given. -/
theorem step_presentFrame_read (d r : Addr5) (v : Word16) (s : State) :
    step (presentFrame 0 d r v s) = exec (.frameRead d r) (nextInput (presentFrame 0 d r v s)) := by
  have hx : currentTransaction (presentFrame 0 d r v s) = some (memRead r) := by
    simp [currentTransaction, presentFrame, xactRdreg, Seq.startOf, regadOf]
  exact step_engine rfl rfl (currentFrame_of_transaction hx)

theorem step_presentFrame_write (d r : Addr5) (v : Word16) (s : State) :
    step (presentFrame 1 d r v s) = exec (.frameWrite d r v) (nextInput (presentFrame 1 d r v s)) := by
  have hx : currentTransaction (presentFrame 1 d r v s) = some (memWrite r v) := by
    simp [currentTransaction, presentFrame, xactWrreg, Seq.startOf, regadOf]
  exact step_engine rfl rfl (currentFrame_of_transaction hx)

/-- Settles O5: `step_command` and `step_engine` say what an idle and a busy block run; a word that `withFetchWord` puts
in front of the block is the host's command, or the transaction of a direct access. -/
theorem stepRunsTheDecodedInstruction : Obligations.StepRunsTheDecodedInstruction := by
  refine ⟨fun s p i hb hp hi => ?_, fun s x hb hr hx => ?_, fun s w i hi => ?_, fun s w i hi => ?_⟩
  · exact step_command (by rw [hp]) hb (by rw [hp]) (by rw [hp]; exact hi)
  · exact step_engine hr hb (currentFrame_of_transaction hx)
  · exact step_command rfl rfl rfl hi
  · have hi' : decodeFrame s.cfg.taWr (BitVec.ofNat 32 w) = .ok i := hi
    rw [withFetchWord_frame, present, hi']
    rcases decodeFrame_ok hi' with ⟨d, r, rfl⟩ | ⟨d, r, v, rfl⟩
    · exact step_presentFrame_read d r s.aVal s
    · exact step_presentFrame_write d r v s

theorem work_busy {s : State} (hr : (hostPins s).rst = false) (hb : s.busy = true) : work s = engineWork s := by
  simp [work, hr, hb]

/-- Settles O10: without a reset a busy block looks at its current frame only, which the pins are no part of; and the
accept step of a command does nothing while `BUSY = 1` (`accept_busy`). -/
theorem busyBlockIgnoresCommands : Obligations.BusyBlockIgnoresCommands := by
  refine ⟨fun s p q v w rest hb => ?_, fun s op a hb => ?_⟩
  · have hwork : ∀ u o, work { s with hostIn := ⟨false, u, o⟩ :: rest } = engineWork s :=
      fun u o => work_busy (s := { s with hostIn := ⟨false, u, o⟩ :: rest }) rfl hb
    rw [step, step, hwork, hwork]
    rfl
  · obtain ⟨bad, hexec⟩ := exec_command op a s
    rw [hexec, accept_busy hb]

/-- Settles O13, by the guard of the two frames. -/
theorem idleEngineTakesNoStep : Obligations.IdleEngineTakesNoStep := by
  intro s d r v hb
  simp [exec, execFrameWrite, execFrameRead, hb]

/-! ### The end of a transaction of each command (41_direct_access.md to 43_device_ops.md) -/

section
variable {s : State}

theorem endOfTransaction_of_isSome (hx : (currentTransaction s).isSome = true) :
    endOfTransaction s = .next (commandEnd s) := by
  obtain ⟨x, hx⟩ := Option.isSome_iff_exists.mp hx
  exact endOfTransaction_some hx

theorem endOfTransaction_rdreg (h : s.aOp = 0) (hk : s.seq.xact = 0) : endOfTransaction s = .next (endRdreg s) := by
  rw [endOfTransaction_of_isSome (by simp [currentTransaction, h, xactRdreg, hk]), commandEnd_rdreg h]

theorem endOfTransaction_wrreg (h : s.aOp = 1) (hk : s.seq.xact = 0) : endOfTransaction s = .next (endWrreg s) := by
  rw [endOfTransaction_of_isSome (by simp [currentTransaction, h, xactWrreg, hk]), commandEnd_wrreg h]

theorem endOfTransaction_rdexp (h : s.aOp = 2) : endOfTransaction s = .next (endRdexp s) := by
  have hx : (xactRdexp s).isSome = true := by
    unfold xactRdexp
    split <;> rfl
  rw [endOfTransaction_of_isSome (by simpa [currentTransaction, h] using hx), commandEnd_rdexp h]

theorem endOfTransaction_wrexp (h : s.aOp = 3) : endOfTransaction s = .next (endWrexp s) := by
  have hx : (xactWrexp s).isSome = true := by
    unfold xactWrexp
    split <;> rfl
  rw [endOfTransaction_of_isSome (by simpa [currentTransaction, h] using hx), commandEnd_wrexp h]

theorem endOfTransaction_chkdev (h : s.aOp = 4) (hk : s.seq.xact = 0 ∨ s.seq.xact = 1) :
    endOfTransaction s = .next (endChkdev s) := by
  have hx : (xactChkdev s).isSome = true := by rcases hk with hk | hk <;> simp [xactChkdev, hk]
  rw [endOfTransaction_of_isSome (by simpa [currentTransaction, h] using hx), commandEnd_chkdev h]

theorem endOfTransaction_rstdev (h : s.aOp = 5) (hk : s.seq.xact = 0 ∨ s.seq.xact = 1) :
    endOfTransaction s = .next (endRstdev s) := by
  have hx : (xactRstdev s).isSome = true := by rcases hk with hk | hk <;> simp [xactRstdev, hk]
  rw [endOfTransaction_of_isSome (by simpa [currentTransaction, h] using hx), commandEnd_rstdev h]

theorem endOfTransaction_link (h : s.aOp = 6) (hk : s.seq.xact = 0 ∨ s.seq.xact = 1) :
    endOfTransaction s = .next (endLink s) := by
  have hx : (xactLink s).isSome = true := by rcases hk with hk | hk <;> simp [xactLink, hk]
  rw [endOfTransaction_of_isSome (by simpa [currentTransaction, h] using hx), commandEnd_link h]

/-! The three commands whose logic tests a value, branch by branch. -/

theorem endChkdev_mismatch (hk : s.seq.xact = 0) (hne : s.shr ≠ s.aVal) (hshort : s.cfg.idShortCircuit = true) :
    endChkdev s = complete 0 (setM1 s) := by
  simp [endChkdev, hk, idHighMatches, hne, hshort, boolResult]

theorem endChkdev_goes_on (hk : s.seq.xact = 0) (h : s.shr = s.aVal ∨ s.cfg.idShortCircuit = false) :
    endChkdev s = startFrame 1 (setM1 s) := by
  rcases h with h | h <;> simp [endChkdev, hk, idHighMatches, h]

theorem endChkdev_both_match (hk : s.seq.xact = 1) (hm : s.m1 = true) (h : s.shr = s.aVal2) :
    endChkdev s = complete 1 s := by
  simp [endChkdev, hk, hm, idLowMatches, h, boolResult]

theorem endChkdev_not_both (hk : s.seq.xact = 1) (h : s.m1 = false ∨ s.shr ≠ s.aVal2) :
    endChkdev s = complete 0 s := by
  rcases h with h | h <;> simp [endChkdev, hk, idLowMatches, h, boolResult]

theorem endRstdev_write (hk : s.seq.xact = 0) : endRstdev s = startFrame 1 s := by simp [endRstdev, hk]

theorem endRstdev_clear (hk : s.seq.xact = 1) (h : s.shr &&& s.cfg.resetMask = 0) :
    endRstdev s = complete 0 (countPoll s) := by
  simp [endRstdev, hk, endPoll, resetBit, maskTest_false h]

theorem endRstdev_timeout (hk : s.seq.xact = 1) (h : s.shr &&& s.cfg.resetMask ≠ 0)
    (hl : s.cfg.resetPollLimit = some (s.polls + 1)) :
    endRstdev s = finish (raise .timeout (countPoll s)) := by
  simp [endRstdev, hk, endPoll, resetBit, maskTest_true h, pollLimitReached, hl]

theorem endRstdev_again (hk : s.seq.xact = 1) (h : s.shr &&& s.cfg.resetMask ≠ 0)
    (hl : s.cfg.resetPollLimit ≠ some (s.polls + 1)) : endRstdev s = startFrame 1 (countPoll s) := by
  simp [endRstdev, hk, endPoll, resetBit, maskTest_true h, pollLimitReached, hl]

theorem endLink_up (hk : s.seq.xact = 0 ∨ s.seq.xact = 1) (h : s.shr &&& s.cfg.linkMask ≠ 0) :
    endLink s = complete 1 s := by
  rcases hk with hk | hk <;> simp [endLink, hk, linkBit, maskTest_true h, boolResult]

theorem endLink_down_first (hk : s.seq.xact = 0) (h : s.shr &&& s.cfg.linkMask = 0) : endLink s = startFrame 1 s := by
  simp [endLink, hk, linkBit, maskTest_false h]

theorem endLink_down_second (hk : s.seq.xact = 1) (h : s.shr &&& s.cfg.linkMask = 0) : endLink s = complete 0 s := by
  simp [endLink, hk, linkBit, maskTest_false h, boolResult]

end

/-- Settles O14: each clause is one branch of the command's logic, and `complete`, `raise` and `startFrame` are by
definition the updates it writes out. -/
theorem endOfTransactionLogic : Obligations.EndOfTransactionLogic := by
  intro s next finished
  refine ⟨fun h hk => ?_, fun h hk => ?_, fun h hk => ?_, fun h hk => ?_, fun h hk => ?_, fun h hk => ?_,
    fun h hk hne hshort => ?_, fun h hk hgo => ?_, fun h hk hm heq => ?_, fun h hk hno => ?_, fun h hk => ?_,
    fun h hk hclear => ?_, fun h hk hset hl => ?_, fun h hk hset hl => ?_, fun h hk hup => ?_, fun h hk hdown => ?_,
    fun h hk hdown => ?_⟩
  · rw [endOfTransaction_rdreg h hk]
    rfl
  · rw [endOfTransaction_wrreg h hk]
    rfl
  · rcases h with h | h
    · rw [endOfTransaction_rdexp h, endRdexp, hk]
      rfl
    · rw [endOfTransaction_wrexp h, endWrexp, hk]
      rfl
  · rcases h with h | h
    · rw [endOfTransaction_rdexp h, endRdexp, hk]
      rfl
    · rw [endOfTransaction_wrexp h, endWrexp, hk]
      rfl
  · rw [endOfTransaction_rdexp h, endRdexp, hk]
    rfl
  · rw [endOfTransaction_wrexp h, endWrexp, hk]
    rfl
  · have hm1 : setM1 s = { s with m1 := false } := by simp [setM1, idHighMatches, hne]
    rw [endOfTransaction_chkdev h (.inl hk), endChkdev_mismatch hk hne hshort, hm1]
    rfl
  · rw [endOfTransaction_chkdev h (.inl hk), endChkdev_goes_on hk hgo]
    rfl
  · rw [endOfTransaction_chkdev h (.inr hk), endChkdev_both_match hk hm heq]
    rfl
  · rw [endOfTransaction_chkdev h (.inr hk), endChkdev_not_both hk hno]
    rfl
  · rw [endOfTransaction_rstdev h (.inl hk), endRstdev_write hk]
    rfl
  · rw [endOfTransaction_rstdev h (.inr hk), endRstdev_clear hk hclear]
    rfl
  · rw [endOfTransaction_rstdev h (.inr hk), endRstdev_timeout hk hset hl]
    rfl
  · rw [endOfTransaction_rstdev h (.inr hk), endRstdev_again hk hset hl]
    rfl
  · rw [endOfTransaction_link h hk, endLink_up hk hup]
    rfl
  · rw [endOfTransaction_link h (.inl hk), endLink_down_first hk hdown]
    rfl
  · rw [endOfTransaction_link h (.inr hk), endLink_down_second hk hdown]
    rfl

end Sys2Proof.Machine
end

section
/-! PROOFS. The samples are a free input (20_memory.md R46): when a row of the step table of 40_codec.md R88 exists, and
what it drives, said once from the registers alone. -/

namespace Sys2Proof.Machine

/-! ### When a row of the step table exists -/

section
variable {s : State}

theorem startStep_next_iff : (∃ t, startStep s = .next t) ↔ s.seq.sub = .data := by
  cases hsub : s.seq.sub <;> simp [startStep, hsub]

theorem drivenStep_next_iff {f : Field} {ph : Phase} {n : Nat} :
    (∃ t, drivenStep f ph n s = .next t) ↔ (s.seq.sub = .data → s.seq.cnt ≠ 0) := by
  cases hsub : s.seq.sub with
  | data => by_cases hcnt : s.seq.cnt = 0 <;> simp [drivenStep, hsub, hcnt]
  | rise => simp [drivenStep, hsub]
  | fall => by_cases hcnt : 1 < s.seq.cnt <;> simp [drivenStep, hsub, hcnt]

theorem turnaroundStep_next_iff : (∃ t, turnaroundStep s = .next t) ↔ s.seq.sub ≠ .data := by
  cases hsub : s.seq.sub with
  | data => simp [turnaroundStep, hsub]
  | rise => simp [turnaroundStep, hsub]
  | fall => by_cases hcnt : 1 < s.seq.cnt <;> simp [turnaroundStep, hsub, hcnt]

/-- A line event does not take the current transaction away, so the end of the transaction has its logic. -/
theorem RowStep.endOfTransaction_eq {u : State} {e : LineEvent} {x : Transaction} (h : RowStep s e u)
    (hx : currentTransaction s = some x) : endOfTransaction u = .next (commandEnd u) :=
  endOfTransaction_some ((h.command.currentTransaction_eq h.progress.xact).trans hx)

theorem releaseStep_next_iff {x : Transaction} (hx : currentTransaction s = some x) (read : Bool) :
    (∃ t, releaseStep read s = .next t) ↔ s.seq.sub = .data := by
  cases hsub : s.seq.sub with
  | data => cases read <;> simp [releaseStep, hsub, (rowStep_dirInput s).endOfTransaction_eq hx]
  | rise => simp [releaseStep, hsub]
  | fall => simp [releaseStep, hsub]

theorem sampleStep_next {x : Transaction} (hx : currentTransaction s = some x) : ∃ t, sampleStep s = .next t := by
  cases hsub : s.seq.sub with
  | data => simp [sampleStep, hsub]
  | rise => simp [sampleStep, hsub]
  | fall =>
    by_cases hcnt : 1 < s.seq.cnt <;> simp [sampleStep, hsub, hcnt, (rowStep_wrMdc false s).endOfTransaction_eq hx]

/-- `SEQ` stands at a row of the step table of 40_codec.md R88, in the frame of transaction `x` to device `d`. -/
def RowExists (d : Addr5) (x : Transaction) (s : State) : Prop :=
  match slotOf s.cfg d x s.seq.ph with
  | .start => s.seq.sub = .data
  | .driven _ _ _ => s.seq.sub = .data → s.seq.cnt ≠ 0
  | .release => s.seq.sub = .data
  | .turnaround => s.seq.sub ≠ .data
  | .sample => True
  | .absent => False

/-- In a current transaction the engine steps exactly where `SEQ` stands at a row. -/
theorem frameStep_next_iff {y : Transaction} (hy : currentTransaction s = some y) (d : Addr5) (x : Transaction) :
    (∃ t, frameStep d x s = .next t) ↔ RowExists d x s := by
  unfold frameStep RowExists
  cases slotOf s.cfg d x s.seq.ph with
  | start => exact startStep_next_iff
  | driven f ph n => exact drivenStep_next_iff
  | release => exact releaseStep_next_iff hy x.read
  | turnaround => exact turnaroundStep_next_iff
  | sample => exact iff_of_true (sampleStep_next hy) trivial
  | absent => simp

/-- Wherever the engine may stand there is a row. -/
theorem FramePosition.rowExists {x : Transaction} (h : FramePosition s x) : RowExists s.aDev x s := by
  unfold FramePosition at h
  unfold RowExists
  cases hs : slotOf s.cfg s.aDev x s.seq.ph <;> simp only [hs] at h ⊢
  case start =>
    obtain ⟨-, hsub, -⟩ := h
    exact hsub
  case driven =>
    obtain ⟨hcnt, -⟩ := h
    exact fun _ => by omega
  case release =>
    obtain ⟨-, hsub, -⟩ := h
    exact hsub
  case turnaround =>
    obtain ⟨-, -, hsub, -⟩ := h
    exact hsub

end

/-- Settles O38: reset and waiting always answer; a command that the ports can carry is decoded, and its accept step
answers (`exec_command`); the engine stands at a row of the step table (`FramePosition.rowExists`), and a row answers
(`frameStep_next_iff`), no sample being looked at. -/
theorem blockNeverStops : Obligations.BlockNeverStops := by
  intro s hi hfits
  cases hr : (hostPins s).rst with
  | true => exact ⟨_, step_reset hr⟩
  | false =>
    cases hb : s.busy with
    | true =>
      obtain ⟨x, hx, hpos⟩ := hi.nextInput.position hb
      rw [step_busy hb hr hx]
      exact (frameStep_next_iff hx s.aDev x).mpr hpos.rowExists
    | false =>
      cases hv : (hostPins s).cmdValid with
      | true =>
        have hdecode : decodeCommand s.cfg.argw (hostPins s).cmd =
            .ok (commandOf (hostPins s).cmd.op (hostPins s).cmd.args) := if_pos hfits
        obtain ⟨bad, hexec⟩ := exec_command (hostPins s).cmd.op (hostPins s).cmd.args (nextInput s)
        exact ⟨_, (step_command hr hb hv hdecode).trans hexec⟩
      | false => exact ⟨_, step_wait hr hb hv⟩

/-! ### What a row drives (10_state.md R21) -/

@[simp] theorem linePort_dirOutput (s : State) : linePort (dirOutput s) = { linePort s with mdioOe := true } := rfl
@[simp] theorem linePort_dirInput (s : State) : linePort (dirInput s) = { linePort s with mdioOe := false } := rfl
@[simp] theorem linePort_wrMdio (b : Level) (s : State) : linePort (wrMdio b s) = { linePort s with mdioO := b } := rfl
@[simp] theorem linePort_wrMdc (b : Level) (s : State) : linePort (wrMdc b s) = { linePort s with mdcO := b } := rfl
@[simp] theorem linePort_rdMdio (s : State) : linePort (rdMdio s).2 = linePort s := rfl
@[simp] theorem linePort_shiftShr (b : Level) (s : State) : linePort (shiftShr b s) = linePort s := rfl
@[simp] theorem linePort_clearShr (s : State) : linePort (clearShr s) = linePort s := rfl
@[simp] theorem linePort_enter (ph : Phase) (n : Nat) (sub : Sub) (s : State) :
    linePort (enter ph n sub s) = linePort s := rfl
@[simp] theorem linePort_setSub (sub : Sub) (s : State) : linePort (setSub sub s) = linePort s := rfl
@[simp] theorem linePort_nextSlot (sub : Sub) (s : State) : linePort (nextSlot sub s) = linePort s := rfl

/-- The line port after the row that `SEQ` stands at, from the registers alone (10_state.md R21, 40_codec.md R88). -/
def rowLines (d : Addr5) (x : Transaction) (s : State) : LinePort :=
  match slotOf s.cfg d x s.seq.ph, s.seq.sub with
  | .start, _ => { linePort s with mdioOe := true }
  | .release, _ => { linePort s with mdioOe := false }
  | .absent, _ => linePort s
  | .driven f _ _, .data => { linePort s with mdioO := f.value.testBit (s.seq.cnt - 1) }
  | .turnaround, .data => linePort s
  | .sample, .data => linePort s
  | _, .rise => { linePort s with mdcO := true }
  | _, .fall => { linePort s with mdcO := false }

theorem commandEnd_linePort {s : State} {x : Transaction} (hx : currentTransaction s = some x) :
    linePort (commandEnd s) = linePort s := by
  obtain ⟨-, -, hmdc, hoe, hmdio, -⟩ := commandEnd_sameLines hx
  simp [linePort, hmdc, hoe, hmdio, (commandEnd_sameCommand hx).mdcOe]

theorem frameStep_linePort {d : Addr5} {x : Transaction} {s t : State} (h : frameStep d x s = .next t) :
    linePort t = rowLines d x s := by
  rcases frameStep_cases h with ⟨hph, -, rfl⟩ | ⟨f, ph, n, hs, hrow⟩ | ⟨hph, -, hrow⟩ | ⟨hs, hrow⟩ | ⟨hs, hrow⟩
  · simp [rowLines, slotOf, hph]
  · rcases hrow with ⟨hsub, -, rfl⟩ | ⟨hsub, rfl⟩ | ⟨hsub, -, rfl⟩ | ⟨hsub, -, rfl⟩ <;> simp [rowLines, hs, hsub]
  · rcases hrow with ⟨-, rfl⟩ | ⟨-, ⟨y, hy⟩, rfl⟩
    · simp [rowLines, slotOf, hph]
    · simp [rowLines, slotOf, hph, commandEnd_linePort hy]
  · rcases hrow with ⟨hsub, rfl⟩ | ⟨hsub, -, rfl⟩ | ⟨hsub, -, rfl⟩ <;> simp [rowLines, hs, hsub]
  · rcases hrow with ⟨hsub, rfl⟩ | ⟨hsub, rfl⟩ | ⟨hsub, -, rfl⟩ | ⟨hsub, -, ⟨y, hy⟩, rfl⟩
    · simp [rowLines, hs, hsub]
    · simp [rowLines, hs, hsub]
    · simp [rowLines, hs, hsub]
    · simp [rowLines, hs, hsub, commandEnd_linePort hy]

/-! ### Another environment -/

/-- `s` with another environment to answer the samples. -/
def withEnv (e : Env) (s : State) : State := { s with env := e }

/-- Of a row, neither its existence nor the lines it drives nor its one event depend on the environment. -/
theorem frameStep_withEnv {d : Addr5} {x y : Transaction} {s t : State} (e : Env)
    (hy : currentTransaction s = some y) (h : frameStep d x s = .next t) :
    ∃ u, frameStep d x (withEnv e s) = .next u ∧ linePort u = linePort t ∧ u.trace.length = t.trace.length := by
  have hrow : RowExists d x (withEnv e s) := (frameStep_next_iff hy d x).mp ⟨t, h⟩
  have hye : currentTransaction (withEnv e s) = some y := hy
  obtain ⟨u, hu⟩ := (frameStep_next_iff hye d x).mpr hrow
  have hlines : rowLines d x (withEnv e s) = rowLines d x s := rfl
  obtain ⟨et, htrace⟩ := frameStep_trace h
  obtain ⟨eu, hutrace⟩ := frameStep_trace hu
  refine ⟨u, hu, by rw [frameStep_linePort hu, frameStep_linePort h, hlines], ?_⟩
  rw [htrace, hutrace, List.length_append, List.length_append]
  rfl

/-- An accept step emits no line event (10_state.md R24). -/
theorem accept_lines (op : BitVec 3) (bad : Bool) (a : CmdOperands) (s : State) :
    linePort (accept op bad a s) = linePort s ∧ (accept op bad a s).trace = s.trace := by
  unfold accept
  split
  · exact ⟨rfl, rfl⟩
  · split <;> exact ⟨rfl, rfl⟩

/-- Settles O43: the pins and `BUSY` choose the kind of step; a row of the engine is `frameStep_withEnv`, and reset, accept
and waiting never look at the environment. -/
theorem samplesNeverStopTheEngine : Obligations.SamplesNeverStopTheEngine := by
  intro s t e h
  change ∃ u, step (withEnv e s) = .next u ∧ _
  rcases step_cases h with ⟨hr, rfl⟩ | ⟨hr, hb, -⟩ | ⟨hr, hb, hv, i, hi, hexec⟩ | ⟨hr, hb, hv, rfl⟩
  · exact ⟨_, step_reset (s := withEnv e s) hr, rfl, rfl⟩
  · obtain ⟨x, hx, hrow⟩ := step_busy_cases hb hr h
    have hstep : step (withEnv e s) = frameStep s.aDev x (withEnv e (nextInput s)) :=
      step_busy (s := withEnv e s) hb hr hx
    rw [hstep]
    exact frameStep_withEnv e (s := nextInput s) hx hrow
  · obtain ⟨bad, haccept⟩ := exec_command_uniform (hostPins s).cmd.op (hostPins s).cmd.args
    rw [← decodeCommand_ok hi] at haccept
    rw [haccept] at hexec
    cases hexec
    have hstep := (step_command (s := withEnv e s) hr hb hv hi).trans (haccept _)
    obtain ⟨hlines, htrace⟩ := accept_lines (hostPins s).cmd.op bad (hostPins s).cmd.args (nextInput s)
    obtain ⟨hlines', htrace'⟩ :=
      accept_lines (hostPins s).cmd.op bad (hostPins s).cmd.args (nextInput (withEnv e s))
    exact ⟨_, hstep, hlines'.trans hlines.symm, congrArg List.length (htrace'.trans htrace.symm)⟩
  · exact ⟨_, step_wait (s := withEnv e s) hr hb hv, rfl, rfl⟩

end Sys2Proof.Machine
end

section
/-! PROOFS. The two encodings of 30_encoding.md: a frame word is its fields and nothing else, so that encoder and decoder
are each other's inverse where the decoder answers. -/

namespace Sys2Proof

/-! ### A word and its fields -/

theorem append_eq_append_iff {m n : Nat} {a c : BitVec m} {b d : BitVec n} : a ++ b = c ++ d ↔ a = c ∧ b = d := by
  refine ⟨fun h => ⟨?_, ?_⟩, fun ⟨hac, hbd⟩ => by rw [hac, hbd]⟩
  · simpa only [BitVec.extractLsb'_append_eq_left] using congrArg (·.extractLsb' n m) h
  · simpa only [BitVec.extractLsb'_append_eq_right] using congrArg (·.extractLsb' 0 n) h

/-- A part of a word is two fields exactly when its high and its low bits are. -/
theorem extractLsb'_eq_append_iff {w m n : Nat} {x : BitVec w} {k : Nat} {a : BitVec m} {b : BitVec n} :
    x.extractLsb' k (m + n) = a ++ b ↔ x.extractLsb' (k + n) m = a ∧ x.extractLsb' k n = b := by
  rw [← BitVec.extractLsb'_append_extractLsb'_eq_extractLsb' rfl, append_eq_append_iff]

/-- The 14 driven bits of a read frame, field by field (30_encoding.md R60, R63). -/
theorem extractLsb'_eq_hRead_iff {fw : BitVec 32} {d r : Addr5} :
    fw.extractLsb' 18 14 = hRead d r ↔
      fw.extractLsb' 30 2 = startField ∧ fw.extractLsb' 28 2 = opRead ∧ fw.extractLsb' 23 5 = d ∧
        fw.extractLsb' 18 5 = r := by
  have h : fw.extractLsb' 18 14 = hRead d r ↔ fw.extractLsb' 18 (2 + 2 + 5 + 5) = startField ++ opRead ++ d ++ r :=
    Iff.rfl
  rw [h]
  simp only [extractLsb'_eq_append_iff, and_assoc]

/-- The 32 bits of a write frame, field by field (30_encoding.md R60, R62). -/
theorem eq_fwWrite_iff {t : BitVec 2} {fw : BitVec 32} {d r : Addr5} {v : Word16} :
    fw = fwWrite t d r v ↔
      fw.extractLsb' 30 2 = startField ∧ fw.extractLsb' 28 2 = opWrite ∧ fw.extractLsb' 23 5 = d ∧
        fw.extractLsb' 18 5 = r ∧ fw.extractLsb' 16 2 = t ∧ fw.extractLsb' 0 16 = v := by
  have h : fw = fwWrite t d r v ↔
      fw.extractLsb' 0 (2 + 2 + 5 + 5 + 2 + 16) = startField ++ opWrite ++ d ++ r ++ t ++ v := by
    rw [BitVec.extractLsb'_eq_self]
    rfl
  rw [h]
  simp only [extractLsb'_eq_append_iff, and_assoc, Nat.zero_add]

/-! ### The frame decoder (30_encoding.md R60, R69) -/

section
variable {t : BitVec 2} {fw : BitVec 32}

theorem decodeFrame_badStart (h : fw.extractLsb' 30 2 ≠ startField) : decodeFrame t fw = .error .badStart := if_pos h

theorem decodeFrame_badOpcode (hst : fw.extractLsb' 30 2 = startField) (hrd : fw.extractLsb' 28 2 ≠ opRead)
    (hwr : fw.extractLsb' 28 2 ≠ opWrite) : decodeFrame t fw = .error .badOpcode := by
  simp [decodeFrame, hst, hrd, hwr]

theorem decodeFrame_read (hst : fw.extractLsb' 30 2 = startField) (hop : fw.extractLsb' 28 2 = opRead) :
    decodeFrame t fw = .ok (.frameRead (fw.extractLsb' 23 5) (fw.extractLsb' 18 5)) := by
  simp [decodeFrame, hst, hop]

theorem decodeFrame_write (hst : fw.extractLsb' 30 2 = startField) (hop : fw.extractLsb' 28 2 = opWrite) :
    decodeFrame t fw =
      if fw.extractLsb' 16 2 = t then
        .ok (.frameWrite (fw.extractLsb' 23 5) (fw.extractLsb' 18 5) (fw.extractLsb' 0 16))
      else .error .badTurnaround := by
  simp [decodeFrame, hst, hop, opWrite, opRead]

/-- A word decodes to a read frame exactly when its 14 driven bits are that frame's header (30_encoding.md R63). -/
theorem decodeFrame_eq_frameRead_iff {d r : Addr5} :
    decodeFrame t fw = .ok (.frameRead d r) ↔ fw.extractLsb' 18 14 = hRead d r := by
  rw [extractLsb'_eq_hRead_iff]
  by_cases hst : fw.extractLsb' 30 2 = startField
  · by_cases hrd : fw.extractLsb' 28 2 = opRead
    · simp [decodeFrame_read hst hrd, hst, hrd]
    · by_cases hwr : fw.extractLsb' 28 2 = opWrite
      · rw [decodeFrame_write hst hwr]
        split <;> simp [hrd]
      · simp [decodeFrame_badOpcode hst hrd hwr, hrd]
  · simp [decodeFrame_badStart hst, hst]

/-- A word decodes to a write frame exactly when it is that frame's word (30_encoding.md R62). -/
theorem decodeFrame_eq_frameWrite_iff {d r : Addr5} {v : Word16} :
    decodeFrame t fw = .ok (.frameWrite d r v) ↔ fw = fwWrite t d r v := by
  rw [eq_fwWrite_iff]
  by_cases hst : fw.extractLsb' 30 2 = startField
  · by_cases hwr : fw.extractLsb' 28 2 = opWrite
    · rw [decodeFrame_write hst hwr]
      split
      · next ht => simp [hst, hwr, ht]
      · next ht => simp [ht]
    · by_cases hrd : fw.extractLsb' 28 2 = opRead
      · simp [decodeFrame_read hst hrd, hwr]
      · simp [decodeFrame_badOpcode hst hrd hwr, hwr]
  · simp [decodeFrame_badStart hst, hst]

end

/-! ### The command decoder (30_encoding.md R65, R66) -/

theorem decodeCommand_of_fits {n : Nat} {p : CmdPorts} (h : p.args.fits n = true) :
    decodeCommand n p = .ok (commandOf p.op p.args) :=
  if_pos h

theorem decodeCommand_eq_ok_iff {n : Nat} {p : CmdPorts} {i : Instr} :
    decodeCommand n p = .ok i ↔ p.args.fits n = true ∧ i = commandOf p.op p.args := by
  by_cases h : p.args.fits n = true
  · simp [decodeCommand_of_fits h, h, eq_comm]
  · simp [decodeCommand, h]

/-- The eight codes are the eight rows (30_encoding.md R66, R69). -/
theorem encode_commandOf (c : Config) (op : BitVec 3) (a : CmdOperands) : encode c (commandOf op a) = .cmd ⟨op, a⟩ := by
  have hop : op = 0 ∨ op = 1 ∨ op = 2 ∨ op = 3 ∨ op = 4 ∨ op = 5 ∨ op = 6 ∨ op = 7 := by
    revert op
    decide
  rcases hop with rfl | rfl | rfl | rfl | rfl | rfl | rfl | rfl <;> rfl

/-- A command is well formed when its operands fit, whatever its code. -/
theorem wellFormed_commandOf (n : Nat) (op : BitVec 3) (a : CmdOperands) :
    (commandOf op a).wellFormed n = a.fits n := by
  unfold commandOf
  split <;> rfl

/-! ### Encoder and decoder -/

/-- Settles O1: a command word that fits its ports decodes to the row of its code, and a frame word to the frame whose
fields it holds (`decodeFrame_eq_frameWrite_iff`, `decodeFrame_eq_frameRead_iff`). -/
theorem decodeOfEncodeIsTheInstruction : Obligations.DecodeOfEncodeIsTheInstruction := by
  intro c i hwf
  cases i with
  | rdreg a => exact decodeCommand_of_fits hwf
  | wrreg a => exact decodeCommand_of_fits hwf
  | rdexp a => exact decodeCommand_of_fits hwf
  | wrexp a => exact decodeCommand_of_fits hwf
  | chkdev a => exact decodeCommand_of_fits hwf
  | rstdev a => exact decodeCommand_of_fits hwf
  | link a => exact decodeCommand_of_fits hwf
  | reserved a => exact decodeCommand_of_fits hwf
  | frameWrite d r v => exact decodeFrame_eq_frameWrite_iff.mpr rfl
  | frameRead d r => exact decodeFrame_eq_frameRead_iff.mpr BitVec.extractLsb'_append_eq_left

/-- What the decoder answers is well formed: it has tested the operands of a command, and a frame has no test. -/
theorem wellFormed_of_decode {c : Config} {w : CodeWord} {i : Instr} (h : decode c w = .ok i) :
    i.wellFormed c.argw = true := by
  cases w with
  | cmd p =>
    obtain ⟨hfits, rfl⟩ := decodeCommand_eq_ok_iff.mp h
    rw [wellFormed_commandOf, hfits]
  | frame fw => rcases Machine.decodeFrame_ok h with ⟨d, r, rfl⟩ | ⟨d, r, v, rfl⟩ <;> rfl

/-- Settles O2: a decoded command is the row of its code, whose encoding is that code again (`encode_commandOf`); of a
frame the two equivalences about `decodeFrame` say which word it was; and `decodeFrame` answers frames only. -/
theorem decodedWordHasOneMeaning : Obligations.DecodedWordHasOneMeaning := by
  refine ⟨fun c w i h => wellFormed_of_decode h, fun c p i h => ?_, fun c fw d r v h => ?_, fun c fw d r h => ?_,
    fun c fw a => ?_⟩
  · obtain ⟨-, rfl⟩ := decodeCommand_eq_ok_iff.mp h
    exact encode_commandOf c p.op p.args
  · have hfw : fw = fwWrite c.taWr d r v := decodeFrame_eq_frameWrite_iff.mp h
    exact ⟨hfw, by rw [hfw, encode]⟩
  · have hfw : fw.extractLsb' 18 14 = hRead d r := decodeFrame_eq_frameRead_iff.mp h
    exact ⟨hfw, by rw [hfw, encode]⟩
  · have hframe : ∀ i, decode c (.frame fw) = .ok i → (∃ d r, i = .frameRead d r) ∨ ∃ d r v, i = .frameWrite d r v :=
      fun i h => Machine.decodeFrame_ok h
    refine ⟨?_, ?_, ?_, ?_, ?_, ?_, ?_, ?_⟩ <;> exact fun h => by simpa using hframe _ h

/-- Settles O3: the decoder evaluated at each word; `TA_WR` and `ARGW` of the block are numerals. -/
theorem specWordsDecode : Obligations.SpecWordsDecode := ⟨rfl, rfl, rfl, rfl, rfl, rfl, rfl⟩

/-- Settles O4, by the decoder's first and last test. -/
theorem otherFramesAreRejected : Obligations.OtherFramesAreRejected := by
  intro c fw
  refine ⟨decodeFrame_badStart, fun hst hop => decodeFrame_badOpcode hst ?_ ?_⟩
  · rcases hop with hop | hop <;> simp [hop, opRead]
  · rcases hop with hop | hop <;> simp [hop, opWrite]

end Sys2Proof
end

section
/-! PROOFS. The step table of 40_codec.md R88, row by row: a driven row said once for every driven phase of both frames. -/

namespace Sys2Proof.Machine

/-- The three rows of a driven phase, written out (40_codec.md R88): the data-line event sends bit `CNT - 1` of the field,
the clock goes up, and it goes down to the next bit or, after the last one, to the next phase. -/
theorem frameStep_driven_rows {s : State} {d : Addr5} {x : Transaction} {w f n : Nat} {next : Phase}
    (hs : slotOf s.cfg d x s.seq.ph = .driven ⟨w, f⟩ next n) :
    (s.seq.sub = .data → 1 ≤ s.seq.cnt → frameStep d x s = .next
      { s with
        mdioO := f.testBit (s.seq.cnt - 1), trace := s.trace ++ [.wr .mdio (f.testBit (s.seq.cnt - 1))],
        seq := { s.seq with sub := .rise } }) ∧
    (s.seq.sub = .rise → frameStep d x s = .next
      { s with mdcO := true, trace := s.trace ++ [.wr .mdc true], seq := { s.seq with sub := .fall } }) ∧
    (s.seq.sub = .fall → 1 < s.seq.cnt → frameStep d x s = .next
      { s with
        mdcO := false, trace := s.trace ++ [.wr .mdc false],
        seq := { s.seq with cnt := s.seq.cnt - 1, sub := .data } }) ∧
    (s.seq.sub = .fall → s.seq.cnt ≤ 1 → frameStep d x s = .next
      { s with mdcO := false, trace := s.trace ++ [.wr .mdc false], seq := ⟨s.seq.xact, next, n, .data⟩ }) := by
  have hrow : frameStep d x s = drivenStep ⟨w, f⟩ next n s := by simp only [frameStep, hs]
  rw [hrow]
  refine ⟨fun hsub hcnt => ?_, fun hsub => ?_, fun hsub hcnt => ?_, fun hsub hcnt => ?_⟩
  · simp only [drivenStep, hsub, if_neg (show s.seq.cnt ≠ 0 by omega)]
    rfl
  · simp only [drivenStep, hsub]
    rfl
  · simp only [drivenStep, hsub, if_pos hcnt]
    rfl
  · simp only [drivenStep, hsub, if_neg (show ¬ 1 < s.seq.cnt by omega)]
    rfl

/-- The first row of a frame, written out (40_codec.md R88). -/
theorem frameStep_start_row {s : State} (hph : s.seq.ph = .start) (hsub : s.seq.sub = .data) (d : Addr5)
    (x : Transaction) :
    frameStep d x s = .next
      { s with
        mdioOe := true, trace := s.trace ++ [.dir .mdio .output],
        seq := ⟨s.seq.xact, .pre, s.cfg.preambleLen, .data⟩ } := by
  simp only [frameStep, slotOf, hph, startStep, hsub]
  rfl

theorem frameStep_release {s : State} (hph : s.seq.ph = .rel) (d : Addr5) (x : Transaction) :
    frameStep d x s = releaseStep x.read s := by
  simp only [frameStep, slotOf, hph]

theorem frameStep_turnaround {s : State} {x : Transaction} (hread : x.read = true) (hph : s.seq.ph = .ta) (d : Addr5) :
    frameStep d x s = turnaroundStep s := by
  simp [frameStep, slotOf, hph, hread]

theorem frameStep_sample {s : State} {x : Transaction} (hread : x.read = true) (hph : s.seq.ph = .data) (d : Addr5) :
    frameStep d x s = sampleStep s := by
  simp [frameStep, slotOf, hph, hread]

/-- The accumulation with the new bit as a number (40_codec.md R87). -/
theorem shiftIn_eq_or_ofNat (w : Word16) (b : Level) : shiftIn w b = (w <<< 1) ||| BitVec.ofNat 16 b.toNat := by
  cases b <;> rfl

/-- Settles O11: every row of the list is a driven phase of the table, so `frameStep_driven_rows` gives its steps; the
start and the release are rows of their own. -/
theorem writeFrameStepTable : Obligations.WriteFrameStepTable := by
  intro s d r v hb
  rw [exec_frameWrite_busy hb]
  refine ⟨fun hph hsub => frameStep_start_row hph hsub d _, fun row hrow hph => ?_, fun hph hsub => ?_⟩
  · have hslot : ∃ w, slotOf s.cfg d (memWrite r v) row.1 = .driven ⟨w, row.2.1⟩ row.2.2.1 row.2.2.2 := by
      simp only [List.mem_cons, List.not_mem_nil, or_false] at hrow
      rcases hrow with rfl | rfl | rfl | rfl | rfl | rfl | rfl <;> exact ⟨_, rfl⟩
    obtain ⟨w, hslot⟩ := hslot
    exact frameStep_driven_rows (hph ▸ hslot)
  · rw [frameStep_release hph]
    simp only [releaseStep, hsub]
    rfl

/-- Settles O12: the header's rows are driven phases as in O11; the release, the turnaround and the sampling rows are the
branches of `releaseStep`, `turnaroundStep` and `sampleStep`. -/
theorem readFrameStepTable : Obligations.ReadFrameStepTable := by
  intro s d r hb
  rw [exec_frameRead_busy hb]
  refine ⟨fun hph hsub => frameStep_start_row hph hsub d _, fun row hrow hph => ?_, fun hph hsub => ?_,
    fun hph hsub => ?_, fun hph hsub => ?_, fun hph hsub => ?_, fun hph hsub => ?_, fun hph hsub hcnt => ?_,
    fun hph hsub hcnt => ?_⟩
  · have hslot : ∃ w, slotOf s.cfg d (memRead r) row.1 = .driven ⟨w, row.2.1⟩ row.2.2.1 row.2.2.2 := by
      simp only [List.mem_cons, List.not_mem_nil, or_false] at hrow
      rcases hrow with rfl | rfl | rfl | rfl | rfl <;> exact ⟨_, rfl⟩
    obtain ⟨w, hslot⟩ := hslot
    exact frameStep_driven_rows (hph ▸ hslot)
  · rw [frameStep_release hph]
    simp only [releaseStep, hsub]
    rfl
  · rw [frameStep_turnaround rfl hph]
    simp only [turnaroundStep, hsub]
    rfl
  · rw [frameStep_turnaround rfl hph]
    simp only [turnaroundStep, hsub]
    split <;> rfl
  · rw [frameStep_sample rfl hph]
    simp only [sampleStep, hsub]
    rw [← shiftIn_eq_or_ofNat]
    rfl
  · rw [frameStep_sample rfl hph]
    simp only [sampleStep, hsub]
    rfl
  · rw [frameStep_sample rfl hph]
    simp only [sampleStep, hsub, if_pos hcnt]
    rfl
  · rw [frameStep_sample rfl hph]
    simp only [sampleStep, hsub, if_neg (show ¬ 1 < s.seq.cnt by omega)]
    rfl

end Sys2Proof.Machine
end

section
/-! PROOFS. What the two frame procedures of 40_codec.md R85, R86 do as a whole, and how many line events of each kind they
make. -/

namespace Sys2Proof.Machine

/-! ### The procedures as record updates -/

/-- What `WriteFrame` does (40_codec.md R85): its events; the lines idle, the last data bit left on `MDIO_O`. -/
theorem writeFrame_eq (d r : Addr5) (v : Word16) (s : State) :
    writeFrame d r v s =
      { s with
        trace := s.trace ++ writeFrameEvents s.cfg d r v, mdcO := false, mdioOe := false, mdioO := v.getLsbD 0 } := by
  rw [writeFrame, encodeFrame_eq, emitField_pos_eq _ 2 (by omega), emitField_pos_eq _ 16 (by omega)]
  simp [writeFrameEvents, dirInput, emit, opWrite, -BitVec.getLsbD_eq_getElem, decide_odd_eq]

/-- `n` steps of the accumulation, as arithmetic (30_encoding.md R72). -/
theorem foldl_shiftIn_toNat (bs : List Level) (w : Word16) :
    (bs.foldl shiftIn w).toNat = (w.toNat * 2 ^ bs.length + samplesValue bs) % 65536 := by
  induction bs generalizing w with
  | nil =>
    have hw := w.isLt
    simp [samplesValue]
    omega
  | cons b bs ih =>
    have hmod : ((2 * w.toNat + b.toNat) % 65536 * 2 ^ bs.length + samplesValue bs) % 65536 =
        ((2 * w.toNat + b.toNat) * 2 ^ bs.length + samplesValue bs) % 65536 := by
      rw [Nat.add_mod, Nat.mod_mul_mod, ← Nat.add_mod]
    rw [List.foldl_cons, ih, shiftIn_toNat, hmod, samplesValue, List.length_cons, pow_succ]
    congr 1
    ring

/-- Sixteen samples push out whatever `SHR` held (30_encoding.md R72). -/
theorem foldl_shiftIn_eq_sampledWord {bs : List Level} (h : bs.length = 16) (w : Word16) :
    bs.foldl shiftIn w = sampledWord bs := by
  apply BitVec.eq_of_toNat_eq
  rw [foldl_shiftIn_toNat, h, sampledWord, BitVec.toNat_ofNat]
  omega

/-- What `ReadFrame` does (40_codec.md R86, R87): its events; `SHR` the value of the samples; the lines idle, `r5[0]` left
on `MDIO_O`. -/
theorem readFrame_eq (d r : Addr5) (s : State) :
    readFrame d r s =
      { s with
        trace := s.trace ++ readFrameEvents s.cfg d r (s.env.levels 16), shr := sampledWord (s.env.levels 16),
        env := s.env.skip 16, mdcO := false, mdioOe := false, mdioO := r.getLsbD 0 } := by
  rw [readFrame, repeat_sampleInto_eq, repeat_clockPulse_eq _ _ (by simp [encodeFrame_mdcO]), encodeFrame_eq]
  simp [readFrameEvents, clearShr, dirInput, emit, opRead, foldl_shiftIn_eq_sampledWord]

/-! ### The line events of a frame, counted (40_codec.md R89) -/

/-- How many events that meet `p` one `DIR` of the data line, one `EmitBit`, one `ClockPulse` and one `SampleBit` make
(40_codec.md R80 to R82). -/
structure CountsPerCall (p : LineEvent → Bool) (dir bit pulse sample : Nat) : Prop where
  dir : ∀ m, [LineEvent.dir .mdio m].countP p = dir
  bit : ∀ b, (bitEvents b).countP p = bit
  pulse : pulseEvents.countP p = pulse
  sample : ∀ b, (sampleEvents b).countP p = sample

section
variable {p : LineEvent → Bool} {q k j m : Nat}

theorem countP_flatten_replicate (l : List LineEvent) (n : Nat) :
    ((List.replicate n l).flatten).countP p = n * l.countP p := by
  simp [List.countP_flatten]

theorem CountsPerCall.fieldEvents (h : CountsPerCall p q k j m) (f n : Nat) : (fieldEvents f n).countP p = n * k := by
  induction n with
  | zero => simp [Machine.fieldEvents]
  | succ n ih => rw [Machine.fieldEvents, List.countP_append, h.bit, ih, Nat.succ_mul, Nat.add_comm]

theorem CountsPerCall.samples (h : CountsPerCall p q k j m) (bs : List Level) :
    ((bs.map sampleEvents).flatten).countP p = bs.length * m := by
  induction bs with
  | nil => simp
  | cons b bs ih =>
    rw [List.map_cons, List.flatten_cons, List.countP_append, h.sample, ih, List.length_cons, Nat.succ_mul, Nat.add_comm]

/-- The header is `DIR(MDIO, Output)`, the preamble and 14 bits (40_codec.md R84). -/
theorem CountsPerCall.headerEvents (h : CountsPerCall p q k j m) (c : Config) (op2 : BitVec 2) (d r : Addr5) :
    (headerEvents c op2 d r).countP p = q + (c.preambleLen + 14) * k := by
  rw [Machine.headerEvents, ← List.singleton_append]
  simp only [List.countP_append, h.fieldEvents, countP_flatten_replicate, h.bit, h.dir]
  ring

theorem CountsPerCall.writeFrameEvents (h : CountsPerCall p q k j m) (c : Config) (d r : Addr5) (v : Word16) :
    (writeFrameEvents c d r v).countP p = 2 * q + (c.preambleLen + 32) * k := by
  simp only [Machine.writeFrameEvents, List.countP_append, h.headerEvents, h.fieldEvents, h.dir]
  ring

theorem CountsPerCall.readFrameEvents (h : CountsPerCall p q k j m) (c : Config) (d r : Addr5) (bs : List Level) :
    (readFrameEvents c d r bs).countP p =
      2 * q + (c.preambleLen + 14) * k + c.taRdClocks * j + bs.length * m := by
  simp only [Machine.readFrameEvents, List.countP_append, h.headerEvents, h.dir, countP_flatten_replicate, h.pulse,
    h.samples]
  ring

end

/-- Settles O21: a count over a frame is fixed by what one bit, one clock pulse, one sample and one `DIR` count
(`CountsPerCall`); the total counts every event. -/
theorem frameEventCounts : Obligations.FrameEventCounts := by
  intro s d r v isDir isWrMdio isRdMdio isWrMdc P T
  have hdir : CountsPerCall isDir 1 0 0 0 := ⟨fun _ => rfl, fun _ => rfl, rfl, fun _ => rfl⟩
  have hwrMdio : CountsPerCall isWrMdio 0 1 0 0 := ⟨fun _ => rfl, fun _ => rfl, rfl, fun _ => rfl⟩
  have hrdMdio : CountsPerCall isRdMdio 0 0 0 1 := ⟨fun _ => rfl, fun _ => rfl, rfl, fun _ => rfl⟩
  have hwrMdc : CountsPerCall isWrMdc 0 2 2 2 := ⟨fun _ => rfl, fun _ => rfl, rfl, fun _ => rfl⟩
  have hrise : CountsPerCall (· == .wr .mdc true) 0 1 1 1 :=
    ⟨fun _ => rfl, fun b => by cases b <;> rfl, rfl, fun b => by cases b <;> rfl⟩
  have hall : CountsPerCall (fun _ => true) 1 3 2 3 := ⟨fun _ => rfl, fun _ => rfl, rfl, fun _ => rfl⟩
  refine ⟨⟨writeFrameEvents s.cfg d r v, by rw [writeFrame_eq], ?_⟩,
    ⟨readFrameEvents s.cfg d r (s.env.levels 16), by rw [readFrame_eq], ?_⟩⟩
  · rw [← List.countP_true, List.count, hdir.writeFrameEvents, hwrMdio.writeFrameEvents, hrdMdio.writeFrameEvents,
      hwrMdc.writeFrameEvents, hrise.writeFrameEvents, hall.writeFrameEvents]
    omega
  · rw [← List.countP_true, List.count, hdir.readFrameEvents, hwrMdio.readFrameEvents, hrdMdio.readFrameEvents,
      hwrMdc.readFrameEvents, hrise.readFrameEvents, hall.readFrameEvents, Env.length_levels]
    omega

end Sys2Proof.Machine
end

section
/-! PROOFS. What the two frames put on the wire (30_encoding.md R60 to R63): the level driven at each clock pulse, phase
by phase. -/

namespace Sys2Proof.Machine

/-! ### Bits as driven -/

@[simp] theorem length_drivenBits (n w : Nat) : (drivenBits n w).length = n := by simp [drivenBits]

theorem drivenBits_succ (n w : Nat) : drivenBits (n + 1) w = some (w.testBit n) :: drivenBits n w := by
  simp [drivenBits, List.range_succ_eq_map, Function.comp_def, Nat.sub_add_eq, Nat.sub_right_comm]

theorem getElem?_drivenBits {n i : Nat} (hi : i < n) (w : Nat) :
    (drivenBits n w)[i]? = some (some (w.testBit (n - 1 - i))) := by
  simp [drivenBits, hi]

/-- The high field is sent first (30_encoding.md R61). -/
theorem drivenBits_append {m n : Nat} (a : BitVec m) (b : BitVec n) :
    drivenBits (m + n) (a ++ b).toNat = drivenBits m a.toNat ++ drivenBits n b.toNat := by
  apply List.ext_getElem?
  intro i
  by_cases hm : i < m
  · rw [List.getElem?_append_left (by simpa using hm), getElem?_drivenBits hm, getElem?_drivenBits (by omega)]
    simp only [BitVec.testBit_toNat, BitVec.getLsbD_append, if_neg (show ¬ m + n - 1 - i < n by omega)]
    congr 3
    omega
  · rw [List.getElem?_append_right (by simpa using hm), length_drivenBits]
    by_cases hn : i < m + n
    · rw [getElem?_drivenBits hn, getElem?_drivenBits (by omega)]
      simp only [BitVec.testBit_toNat, BitVec.getLsbD_append, if_pos (show m + n - 1 - i < n by omega)]
      congr 3
      omega
    · rw [List.getElem?_eq_none (by simpa using hn), List.getElem?_eq_none (by simp; omega)]

theorem drivenBits_ones (n : Nat) : drivenBits n (2 ^ n - 1) = List.replicate n (some true) := by
  rw [List.eq_replicate_iff]
  refine ⟨length_drivenBits n _, fun b hb => ?_⟩
  obtain ⟨i, hi, rfl⟩ := List.mem_map.mp hb
  have hi : i < n := List.mem_range.mp hi
  simp [Nat.testBit_two_pow_sub_one]
  omega

/-! ### The levels at the rising edges, call by call (40_codec.md R80 to R86) -/

/-- While the data line is driven, the events `es` put `bits` on the wire, one at each clock pulse, and leave it driven. -/
def Drives (es : List LineEvent) (bits : List (Option Level)) : Prop :=
  ∀ (l : Level) (rest : List LineEvent), ∃ l', risingLevels true l (es ++ rest) = bits ++ risingLevels true l' rest

theorem Drives.append {es es' : List LineEvent} {bits bits' : List (Option Level)} (h : Drives es bits)
    (h' : Drives es' bits') : Drives (es ++ es') (bits ++ bits') := by
  intro l rest
  obtain ⟨l₁, h₁⟩ := h l (es' ++ rest)
  obtain ⟨l₂, h₂⟩ := h' l₁ rest
  exact ⟨l₂, by rw [List.append_assoc, h₁, h₂, List.append_assoc]⟩

/-- `EmitField` sends the field from its top bit down (40_codec.md R83, 30_encoding.md R61). -/
theorem drives_fieldEvents (f n : Nat) : Drives (fieldEvents f n) (drivenBits n f) := by
  induction n with
  | zero => exact fun l rest => ⟨l, rfl⟩
  | succ n ih =>
    intro l rest
    obtain ⟨l', h⟩ := ih (f.testBit n) rest
    refine ⟨l', ?_⟩
    rw [drivenBits_succ, List.cons_append, ← h]
    rfl

/-- A field of a word after the bits sent before it. -/
theorem Drives.field {es : List LineEvent} {pre : List (Option Level)} {m n : Nat} {a : BitVec m}
    (h : Drives es (pre ++ drivenBits m a.toNat)) (b : BitVec n) :
    Drives (es ++ fieldEvents b.toNat n) (pre ++ drivenBits (m + n) (a ++ b).toNat) := by
  rw [drivenBits_append, ← List.append_assoc]
  exact h.append (drives_fieldEvents b.toNat n)

theorem drives_preamble (n : Nat) : Drives (List.replicate n (bitEvents true)).flatten (List.replicate n (some true)) := by
  rw [← fieldEvents_ones n (2 ^ n - 1) fun i hi => by simp [Nat.testBit_two_pow_sub_one, hi], ← drivenBits_ones]
  exact drives_fieldEvents _ n

/-- Preamble, start field, opcode and the two addresses, after `DIR(MDIO, Output)` (40_codec.md R84). -/
theorem headerEvents_eq (c : Config) (op2 : BitVec 2) (d r : Addr5) :
    ∃ es, headerEvents c op2 d r = .dir .mdio .output :: es ∧
      Drives es (List.replicate c.preambleLen (some true) ++ drivenBits 14 (startField ++ op2 ++ d ++ r).toNat) :=
  ⟨_, rfl, ((((drives_preamble c.preambleLen).append (drives_fieldEvents startField.toNat 2)).field op2).field d).field r⟩

theorem risingLevels_pulses (l : Level) (n : Nat) (es : List LineEvent) :
    risingLevels false l ((List.replicate n pulseEvents).flatten ++ es) =
      List.replicate n none ++ risingLevels false l es := by
  induction n with
  | zero => rfl
  | succ n ih =>
    rw [List.replicate_succ, List.replicate_succ, List.cons_append, ← ih]
    rfl

theorem risingLevels_samples (l : Level) (bs : List Level) :
    risingLevels false l ((bs.map sampleEvents).flatten) = List.replicate bs.length none := by
  induction bs with
  | nil => rfl
  | cons b bs ih =>
    rw [List.length_cons, List.replicate_succ, ← ih]
    rfl

/-! ### The two frames -/

/-- The formula of 30_encoding.md R62: fields one after the other are shifted fields ORed. -/
theorem fwWrite_eq_or (t : BitVec 2) (d r : Addr5) (v : Word16) :
    fwWrite t d r v =
      0x50000000#32 ||| (d.setWidth 32 <<< 23) ||| (r.setWidth 32 <<< 18) ||| (t.setWidth 32 <<< 16)
        ||| v.setWidth 32 := by
  have h : fwWrite t d r v = (5#4 ++ d ++ r ++ t ++ v).setWidth 32 := (BitVec.setWidth_eq _).symm
  rw [h]
  simp only [BitVec.setWidth_append_eq_shiftLeft_setWidth_or, BitVec.shiftLeft_or_distrib, ← BitVec.shiftLeft_add]
  rfl

/-- A header's 14 bits, start field and opcode together in `a`, as in 30_encoding.md R63. -/
theorem header_eq_or (a : BitVec 4) (d r : Addr5) :
    (a ++ d ++ r : BitVec 14) = (a.setWidth 14 <<< 10) ||| (d.setWidth 14 <<< 5) ||| r.setWidth 14 := by
  have h : (a ++ d ++ r : BitVec 14) = (a ++ d ++ r).setWidth 14 := (BitVec.setWidth_eq _).symm
  rw [h]
  simp only [BitVec.setWidth_append_eq_shiftLeft_setWidth_or, BitVec.shiftLeft_or_distrib, ← BitVec.shiftLeft_add]

/-- The header of a write frame is its first four fields (30_encoding.md R60, R63). -/
theorem extractLsb'_fwWrite (t : BitVec 2) (d r : Addr5) (v : Word16) :
    (fwWrite t d r v).extractLsb' 18 14 = startField ++ opWrite ++ d ++ r := by
  obtain ⟨hst, hop, hd, hr, -⟩ := eq_fwWrite_iff.mp (rfl : fwWrite t d r v = _)
  have h : (fwWrite t d r v).extractLsb' 18 (2 + 2 + 5 + 5) = startField ++ opWrite ++ d ++ r := by
    simp only [extractLsb'_eq_append_iff, and_assoc]
    exact ⟨hst, hop, hd, hr⟩
  exact h

/-- The levels of a write frame (30_encoding.md R62). -/
theorem risingLevels_writeFrameEvents (c : Config) (d r : Addr5) (v : Word16) (oe : Bool) (l : Level) :
    risingLevels oe l (writeFrameEvents c d r v) =
      List.replicate c.preambleLen (some true) ++ drivenBits 32 (fwWrite c.taWr d r v).toNat := by
  obtain ⟨es, hheader, hes⟩ := headerEvents_eq c opWrite d r
  have hframe : writeFrameEvents c d r v =
      .dir .mdio .output :: (es ++ fieldEvents c.taWr.toNat 2 ++ fieldEvents v.toNat 16 ++ [.dir .mdio .input]) := by
    rw [writeFrameEvents, show (0b01 : BitVec 2) = opWrite from rfl, hheader]
    simp
  obtain ⟨l', hlevels⟩ := (hes.field c.taWr).field v l [.dir .mdio .input]
  calc risingLevels oe l (writeFrameEvents c d r v)
      = risingLevels true l (es ++ fieldEvents c.taWr.toNat 2 ++ fieldEvents v.toNat 16 ++ [.dir .mdio .input]) := by
        rw [hframe, risingLevels]
    _ = _ := hlevels.trans (List.append_nil _)

/-- Settles O22: the preamble and the fields drive their bits one after the other (`Drives.field`), and fields sent high
one first are the frame word. -/
theorem writeFrameOnTheWire : Obligations.WriteFrameOnTheWire := by
  intro c d r v
  exact ⟨risingLevels_writeFrameEvents c d r v, fwWrite_eq_or c.taWr d r v⟩

/-- Settles O23: the header drives its bits as in a write frame; after the release nothing is driven, and the turnaround and
the samples have one pulse each (`risingLevels_pulses`, `risingLevels_samples`); both formulas are `header_eq_or`. -/
theorem readFrameOnTheWire : Obligations.ReadFrameOnTheWire := by
  intro c d r
  refine ⟨fun bs oe l hbs => ?_, header_eq_or (startField ++ opRead) d r,
    fun v => (extractLsb'_fwWrite c.taWr d r v).trans (header_eq_or (startField ++ opWrite) d r)⟩
  obtain ⟨es, hheader, hes⟩ := headerEvents_eq c opRead d r
  obtain ⟨l', hlevels⟩ := hes l (.dir .mdio .input ::
    ((List.replicate c.taRdClocks pulseEvents).flatten ++ (bs.map sampleEvents).flatten))
  have hframe : readFrameEvents c d r bs = .dir .mdio .output :: (es ++ .dir .mdio .input ::
      ((List.replicate c.taRdClocks pulseEvents).flatten ++ (bs.map sampleEvents).flatten)) := by
    rw [readFrameEvents, show (0b10 : BitVec 2) = opRead from rfl, hheader]
    simp
  rw [hframe, risingLevels, hlevels, risingLevels, risingLevels_pulses, risingLevels_samples, hbs,
    List.replicate_append_replicate]
  rfl

end Sys2Proof.Machine
end

section
/-! PROOFS. A direct access as a whole command (41_direct_access.md R100, R101), and the round trip of R102. -/

namespace Sys2Proof.Machine

/-! ### A whole frame of a busy block -/

section
variable {s : State} {k : Fin 3}

/-- From the start of a write transaction the engine's steps are `WriteFrame`, then the command's end-of-transaction logic
(40_codec.md R85, R88). -/
theorem run_writeFrame {r : Addr5} {v : Word16} (hb : s.busy = true) (hseq : s.seq = Seq.startOf k)
    (hx : currentTransaction s = some (memWrite r v)) (hr : NoReset (writeFrameLen s.cfg) s) :
    run (writeFrameLen s.cfg) s =
      .next (commandEnd (dropInputs (writeFrameLen s.cfg) (writeFrame s.aDev r v s))) := by
  have hlen : writeFrameLen s.cfg = 3 * s.cfg.preambleLen + 97 + 1 := rfl
  rw [hlen] at hr ⊢
  obtain ⟨t, hexec, hrun⟩ := engineRefinesWriteFrame (nextInput s) k r v hb hseq hx
    (NoReset.drop (m := 1) (hr.mono (by simp; omega)) (by simp))
  have hstep : step s = .next t := (step_engine hr.head hb (currentFrame_of_transaction hx)).trans hexec
  rw [run_succ hstep]
  refine hrun.trans ?_
  rw [writeFrame_eq, writeFrame_eq, dropInputs_succ (3 * s.cfg.preambleLen + 97)]
  rfl

/-- From the start of a read transaction the engine's steps are `ReadFrame`, then the command's end-of-transaction logic
(40_codec.md R86, R88). -/
theorem run_readFrame {r : Addr5} (hb : s.busy = true) (hseq : s.seq = Seq.startOf k)
    (hx : currentTransaction s = some (memRead r)) (hr : NoReset (readFrameLen s.cfg) s) :
    run (readFrameLen s.cfg) s =
      .next (commandEnd (dropInputs (readFrameLen s.cfg) (readFrame s.aDev r s))) := by
  have hlen : readFrameLen s.cfg = 3 * s.cfg.preambleLen + 91 + 2 * s.cfg.taRdClocks + 1 := by
    simp only [readFrameLen]
    omega
  rw [hlen] at hr ⊢
  obtain ⟨t, hexec, hrun⟩ := engineRefinesReadFrame (nextInput s) k (memRead r) hb hseq hx rfl
    (NoReset.drop (m := 1) (hr.mono (by simp; omega)) (by simp))
  have hstep : step s = .next t := (step_engine hr.head hb (currentFrame_of_transaction hx)).trans hexec
  rw [run_succ hstep]
  refine hrun.trans ?_
  rw [readFrame_eq, readFrame_eq, dropInputs_succ (3 * s.cfg.preambleLen + 91 + 2 * s.cfg.taRdClocks)]
  rfl

end

/-! ### The two direct accesses -/

section
variable {s : State} {a : CmdOperands}

theorem issue_of_exec {i : Instr} {t : State} (h : exec i s = .next t) (n : Nat) : issue i n s = run n t := by
  simp [issue, h]

theorem exec_rdreg_accepted (hb : s.busy = false) (hdev : a.dev ≤ 31) (hreg : a.reg ≤ 31) :
    exec (.rdreg a) s = .next (beginCommand (latch 0 a (clearDone s))) := by
  have hvalid : invalidRdreg a = false := by simp [invalidRdreg, badDev, badReg5, hdev, hreg]
  rw [exec, execRdreg, hvalid, accept_valid hb]

theorem exec_wrreg_accepted (hb : s.busy = false) (hdev : a.dev ≤ 31) (hreg : a.reg ≤ 31) (hval : a.val ≤ 0xFFFF) :
    exec (.wrreg a) s = .next (beginCommand (latch 1 a (clearDone s))) := by
  have hvalid : invalidWrreg a = false := by simp [invalidWrreg, badDev, badReg5, badVal, hdev, hreg, hval]
  rw [exec, execWrreg, hvalid, accept_valid hb]

/-- The register address of a direct access is the low 5 bits of its port (30_encoding.md R67). -/
theorem regadOf_accepted (op : BitVec 3) :
    regadOf (beginCommand (latch op a (clearDone s))) = BitVec.ofNat 5 a.reg :=
  BitVec.setWidth_ofNat_of_le (by decide) a.reg

/-- A valid `WRREG` is its one write frame (41_direct_access.md R101). -/
theorem issue_wrreg (hb : s.busy = false) (hdev : a.dev ≤ 31) (hreg : a.reg ≤ 31) (hval : a.val ≤ 0xFFFF)
    (hr : NoReset (writeFrameLen s.cfg) s) :
    issue (.wrreg a) (writeFrameLen s.cfg) s = .next (ended s 1 a
      { events := writeFrameEvents s.cfg (BitVec.ofNat 5 a.dev) (BitVec.ofNat 5 a.reg) (BitVec.ofNat 16 a.val),
        steps := writeFrameLen s.cfg, value := 0, code := .ok, m1 := false, polls := 0, shr := s.shr, env := s.env,
        lastBit := (BitVec.ofNat 16 a.val).getLsbD 0 }) := by
  have hx : currentTransaction (beginCommand (latch 1 a (clearDone s))) =
      some (memWrite (BitVec.ofNat 5 a.reg) (BitVec.ofNat 16 a.val)) := by
    rw [← regadOf_accepted 1]
    rfl
  rw [issue_of_exec (exec_wrreg_accepted hb hdev hreg hval)]
  refine (run_writeFrame rfl rfl hx hr).trans ?_
  rw [commandEnd_wrreg (by rw [writeFrame_eq]; rfl), endWrreg, writeFrame_eq]
  rfl

/-- A valid `RDREG` is its one read frame, and its result is the value sampled (41_direct_access.md R100). -/
theorem issue_rdreg (hb : s.busy = false) (hdev : a.dev ≤ 31) (hreg : a.reg ≤ 31)
    (hr : NoReset (readFrameLen s.cfg) s) :
    issue (.rdreg a) (readFrameLen s.cfg) s = .next (ended s 0 a
      { events := readFrameEvents s.cfg (BitVec.ofNat 5 a.dev) (BitVec.ofNat 5 a.reg) (s.env.levels 16),
        steps := readFrameLen s.cfg, value := s.env.word 0, code := .ok, m1 := false, polls := 0, shr := s.env.word 0,
        env := s.env.skip 16, lastBit := (BitVec.ofNat 5 a.reg).getLsbD 0 }) := by
  have hx : currentTransaction (beginCommand (latch 0 a (clearDone s))) = some (memRead (BitVec.ofNat 5 a.reg)) := by
    rw [← regadOf_accepted 0]
    rfl
  rw [issue_of_exec (exec_rdreg_accepted hb hdev hreg)]
  refine (run_readFrame rfl rfl hx hr).trans ?_
  rw [commandEnd_rdreg (by rw [readFrame_eq]; rfl), endRdreg, readFrame_eq]
  rfl

end

/-! ### The round trip (41_direct_access.md R102) -/

/-- Samples that are the bits of a number, top bit first, add up to its low bits (40_codec.md R87). -/
theorem samplesValue_of_testBit (v : Nat) (bs : List Level)
    (h : ∀ i < bs.length, bs[i]? = some (v.testBit (bs.length - 1 - i))) :
    samplesValue bs = v % 2 ^ bs.length := by
  induction bs with
  | nil => simp [samplesValue, Nat.mod_one]
  | cons b bs ih =>
    have hb : b = v.testBit bs.length := by simpa using h 0 (by simp)
    have hbs : samplesValue bs = v % 2 ^ bs.length := ih fun i hi => by
      have hi' := h (i + 1) (by simpa using hi)
      simpa [Nat.sub_add_eq, Nat.sub_right_comm] using hi'
    rw [samplesValue, hbs, hb, Nat.toNat_testBit, List.length_cons, Nat.mod_pow_succ, Nat.mul_comm, Nat.add_comm]

theorem sampledWord_of_bits {bs : List Level} {v : Word16} (hlen : bs.length = 16)
    (h : ∀ i < 16, bs[i]? = some (v.getLsbD (15 - i))) : sampledWord bs = v := by
  have hvalue : samplesValue bs = v.toNat % 2 ^ bs.length :=
    samplesValue_of_testBit v.toNat bs fun i hi => by simpa [hlen, BitVec.testBit_toNat] using h i (by omega)
  rw [sampledWord, hvalue, hlen, Nat.mod_eq_of_lt v.isLt, BitVec.ofNat_toNat, BitVec.setWidth_eq]

/-- The data bits of a write frame are the last 16 levels of its wire. -/
theorem writeFrame_data_level (c : Config) (d r : Addr5) (v : Word16) {i : Nat} (hi : i < 16) :
    (risingLevels false true (writeFrameEvents c d r v))[c.preambleLen + 16 + i]? = some (some (v.getLsbD (15 - i))) := by
  rw [risingLevels_writeFrameEvents, List.getElem?_append_right (by simp; omega), List.length_replicate,
    getElem?_drivenBits (by omega), BitVec.testBit_toNat, getLsbD_fwWrite, if_pos (by omega)]
  congr 3
  omega

/-- Settles O35: the two commands are `issue_wrreg` and `issue_rdreg`; `N` pulses before sample `i` the wire carried data
bit `15 - i` of the write frame (`writeFrame_data_level`), so the samples add up to the value written. -/
theorem loopbackRoundTrip : Obligations.LoopbackRoundTrip := by
  intro s d r v hready hd hreg hv hr
  have hwrite := issue_wrreg (a := ⟨d, r, v, 0⟩) hready.busy hd hreg hv (hr.mono (by omega))
  refine ⟨_, _, hwrite, issue_rdreg (s := ended s 1 _ _) (a := ⟨d, r, 0, 0⟩) rfl hd hreg (hr.drop (by rfl)), ?_⟩
  intro levels latency hloop
  have hlevels : levels = risingLevels false true
      (writeFrameEvents s.cfg (BitVec.ofNat 5 d) (BitVec.ofNat 5 r) (BitVec.ofNat 16 v)) :=
    congrArg (risingLevels false true) List.drop_left
  refine ⟨sampledWord_of_bits (Env.length_levels 16 _) fun i hi => ?_, rfl⟩
  have hlength : levels.length = s.cfg.preambleLen + 32 := by rw [hlevels, risingLevels_writeFrameEvents]; simp
  have hindex : levels.length + s.cfg.preambleLen + 14 + s.cfg.taRdClocks + i - latency = s.cfg.preambleLen + 16 + i := by
    omega
  have hsample := hloop i hi
  rw [hindex, hlevels, writeFrame_data_level s.cfg _ _ _ hi] at hsample
  obtain ⟨b, hb, hbit⟩ := Option.map_eq_some_iff.mp hsample.symm
  exact hb.trans hbit

end Sys2Proof.Machine
end


section
/-! PROOFS. The two frames as procedures (40_codec.md R85 to R87), and the stale level at the start of a frame
(70_reset_and_hazards.md R177). -/

namespace Sys2Proof.Machine

/-- Settles O17: `writeFrame_eq`, the procedure's calls added up to one record update. -/
theorem writeFrameEffect : Obligations.WriteFrameEffect := fun s d r v => writeFrame_eq d r v s

/-- Settles O18: `readFrame_eq`, the procedure's calls added up to one record update; `foldl_shiftIn_eq_sampledWord` is
the step in it from sixteen shifts to the sampled sum. -/
theorem readFrameEffect : Obligations.ReadFrameEffect := fun s d r => readFrame_eq d r s

/-- Settles O24: by `foldl_shiftIn_toNat` sixteen shifts move the start value to bit 16 and above, which `SHR` does not
have. -/
theorem sixteenShiftsForgetTheStart : Obligations.SixteenShiftsForgetTheStart := by
  intro w bs hlen
  rw [foldl_shiftIn_eq_sampledWord hlen, sampledWord]

/-- The first data-line event of the preamble, which follows a frame's `DIR(MDIO, Output)`, drives a 1 (40_codec.md R84,
R88). -/
theorem frameStep_preamble_first {s : State} (hseq : s.seq = ⟨s.seq.xact, .pre, s.cfg.preambleLen, .data⟩) (d : Addr5)
    (x : Transaction) :
    frameStep d x s = .next
      { s with mdioO := true, trace := s.trace ++ [.wr .mdio true], seq := { s.seq with sub := .rise } } := by
  have hP := preambleLen_ge s.cfg
  have hph : s.seq.ph = .pre := by rw [hseq]
  have hcnt : s.seq.cnt = s.cfg.preambleLen := by rw [hseq]
  have hslot : slotOf s.cfg d x s.seq.ph = .driven ⟨s.cfg.preambleLen, 2 ^ s.cfg.preambleLen - 1⟩ .st 2 := hph ▸ rfl
  have hone : (2 ^ s.cfg.preambleLen - 1).testBit (s.seq.cnt - 1) = true := by
    rw [Nat.testBit_two_pow_sub_one, decide_eq_true_eq]
    omega
  rw [← hone]
  exact (frameStep_driven_rows hslot).1 (by rw [hseq]) (by omega)

/-- The first two steps of an instruction that runs the rows of a frame, from the start of the frame with the clock low:
the data line is driven at the level `MDIO_O` happens to hold, then at the preamble's 1 (40_codec.md R84, R90). -/
theorem exec_stale_then_preamble {s : State} {i : Instr} {d : Addr5} {x : Transaction}
    (hexec : ∀ {t : State}, t.busy = true → exec i t = frameStep d x t) (hb : s.busy = true)
    (hseq : s.seq = ⟨s.seq.xact, .start, 0, .data⟩) (hmdc : s.mdcO = false) :
    ∃ t u, exec i s = .next t ∧ (∀ ext, dataLevel t ext = s.mdioO) ∧ clockLevel t = false ∧
      exec i t = .next u ∧ (∀ ext, dataLevel u ext = true) ∧ clockLevel u = false :=
  have hstart := frameStep_start_row (s := s) (by rw [hseq]) (by rw [hseq]) d x
  ⟨_, _, (hexec hb).trans hstart, fun _ => rfl, hmdc,
    Eq.trans (hexec hb) (frameStep_preamble_first rfl d x), fun _ => rfl, hmdc⟩

/-- Settles O16: either frame's instruction runs the rows of its frame (`exec_frameWrite_busy`, `exec_frameRead_busy`),
and the first two rows are those of `exec_stale_then_preamble`. -/
theorem staleLevelAtFrameStart : Obligations.StaleLevelAtFrameStart := fun _ d r v hb hseq hmdc =>
  ⟨exec_stale_then_preamble (exec_frameWrite_busy · d r v) hb hseq hmdc,
    exec_stale_then_preamble (exec_frameRead_busy · d r) hb hseq hmdc⟩

end Sys2Proof.Machine
end


section
/-! PROOFS. The two direct accesses, rejected or run to their end (41_direct_access.md R100, R101). -/

namespace Sys2Proof.Machine

section
variable {s : State} {a : CmdOperands}

theorem invalidRdreg_iff : invalidRdreg a = true ↔ a.dev > 31 ∨ a.reg > 31 := by
  simp [invalidRdreg, badDev, badReg5]

theorem invalidWrreg_iff : invalidWrreg a = true ↔ a.dev > 31 ∨ a.reg > 31 ∨ a.val > 0xFFFF := by
  simp [invalidWrreg, badDev, badReg5, badVal, or_assoc]

/-- A `RDREG` with an operand out of range never starts its frame (60_exceptions.md R140). -/
theorem exec_rdreg_rejected (hb : s.busy = false) (hbad : a.dev > 31 ∨ a.reg > 31) :
    exec (.rdreg a) s = .next (rejected s) := by
  rw [exec, execRdreg, invalidRdreg_iff.mpr hbad, accept_invalid hb]

/-- A `WRREG` with an operand out of range never starts its frame (60_exceptions.md R140). -/
theorem exec_wrreg_rejected (hb : s.busy = false) (hbad : a.dev > 31 ∨ a.reg > 31 ∨ a.val > 0xFFFF) :
    exec (.wrreg a) s = .next (rejected s) := by
  rw [exec, execWrreg, invalidWrreg_iff.mpr hbad, accept_invalid hb]

end

/-- Settles O25: a bad operand ends the command at its accept step (`exec_rdreg_rejected`), and a valid command is its one
read frame, whose samples are the result (`issue_rdreg`). -/
theorem rdregReadsOneRegister : Obligations.RdregReadsOneRegister := fun _ _ hready =>
  ⟨exec_rdreg_rejected hready.busy, issue_rdreg hready.busy⟩

/-- Settles O26: a bad operand ends the command at its accept step (`exec_wrreg_rejected`), and a valid command is its one
write frame, after which the result is 0 (`issue_wrreg`). -/
theorem wrregWritesOneRegister : Obligations.WrregWritesOneRegister := fun _ _ hready =>
  ⟨exec_wrreg_rejected hready.busy, issue_wrreg hready.busy⟩

end Sys2Proof.Machine
end


section
/-! PROOFS. The two expansion accesses as whole commands (42_expansion_access.md R110, R111), and their line traces
against those of three direct accesses (30_encoding.md R71). -/

namespace Sys2Proof.Machine

/-! ### The state after a whole frame -/

/-- `s` when the engine has run a write frame in it, before the command's end-of-transaction logic: `WriteFrame`'s
effect (40_codec.md R85), the pins of its steps used up. -/
def afterWrite (r : Addr5) (v : Word16) (s : State) : State :=
  { s with
    trace := s.trace ++ writeFrameEvents s.cfg s.aDev r v
    mdcO := false
    mdioOe := false
    mdioO := v.getLsbD 0
    hostIn := s.hostIn.drop (writeFrameLen s.cfg) }

/-- `s` when the engine has run a read frame in it, before the command's end-of-transaction logic: `ReadFrame`'s effect
(40_codec.md R86), the pins of its steps used up. -/
def afterRead (r : Addr5) (s : State) : State :=
  { s with
    trace := s.trace ++ readFrameEvents s.cfg s.aDev r (s.env.levels 16)
    shr := s.env.word 0
    env := s.env.skip 16
    mdcO := false
    mdioOe := false
    mdioO := r.getLsbD 0
    hostIn := s.hostIn.drop (readFrameLen s.cfg) }

/-- No reset in `n` of the steps that follow `m` steps used up. -/
theorem NoReset.after {l n : Nat} {s t : State} (h : NoReset l s) (m : Nat) (hle : m + n ≤ l)
    (ht : t.hostIn = s.hostIn.drop m) : NoReset n t :=
  (h.mono hle).drop ht

section
variable {s : State} {k : Fin 3} {r : Addr5}

/-- A write transaction, run from its start to what the end-of-transaction logic makes of it. -/
theorem run_write_transaction {v : Word16} {t : State} (hb : s.busy = true) (hseq : s.seq = Seq.startOf k)
    (hx : currentTransaction s = some (memWrite r v)) (hr : NoReset (writeFrameLen s.cfg) s)
    (hend : commandEnd (afterWrite r v s) = t) : run (writeFrameLen s.cfg) s = .next t := by
  rw [run_writeFrame hb hseq hx hr, writeFrame_eq, ← hend]
  rfl

/-- A read transaction, run from its start to what the end-of-transaction logic makes of it. -/
theorem run_read_transaction {t : State} (hb : s.busy = true) (hseq : s.seq = Seq.startOf k)
    (hx : currentTransaction s = some (memRead r)) (hr : NoReset (readFrameLen s.cfg) s)
    (hend : commandEnd (afterRead r s) = t) : run (readFrameLen s.cfg) s = .next t := by
  rw [run_readFrame hb hseq hx hr, readFrame_eq, ← hend]
  rfl

end

/-! ### The three transactions of an expansion access, and what ends each (42_expansion_access.md R110, R111) -/

section
variable {s : State}

theorem currentTransaction_select (hop : s.aOp = 2 ∨ s.aOp = 3) (hk : s.seq.xact = 0) :
    currentTransaction s = some (selectWrite s) := by
  rcases hop with h | h <;> simp [currentTransaction, xactRdexp, xactWrexp, h, hk]

theorem currentTransaction_rdexp_data (hop : s.aOp = 2) (hk : s.seq.xact = 1) :
    currentTransaction s = some (memRead s.cfg.dataReg) := by
  simp [currentTransaction, xactRdexp, hop, hk]

theorem currentTransaction_wrexp_data (hop : s.aOp = 3) (hk : s.seq.xact = 1) :
    currentTransaction s = some (memWrite s.cfg.dataReg s.aVal) := by
  simp [currentTransaction, xactWrexp, hop, hk]

theorem currentTransaction_deselect (hop : s.aOp = 2 ∨ s.aOp = 3) (hk : s.seq.xact = 2) :
    currentTransaction s = some (deselectWrite s) := by
  rcases hop with h | h <;> simp [currentTransaction, xactRdexp, xactWrexp, h, hk]

theorem commandEnd_select (hop : s.aOp = 2 ∨ s.aOp = 3) (hk : s.seq.xact = 0) : commandEnd s = startFrame 1 s := by
  rcases hop with h | h
  · rw [commandEnd_rdexp h, endRdexp, hk]
  · rw [commandEnd_wrexp h, endWrexp, hk]

theorem commandEnd_expansion_data (hop : s.aOp = 2 ∨ s.aOp = 3) (hk : s.seq.xact = 1) :
    commandEnd s = startFrame 2 s := by
  rcases hop with h | h
  · rw [commandEnd_rdexp h, endRdexp, hk]
  · rw [commandEnd_wrexp h, endWrexp, hk]

theorem commandEnd_rdexp_deselect (hop : s.aOp = 2) (hk : s.seq.xact = 2) : commandEnd s = complete s.shr s := by
  rw [commandEnd_rdexp hop, endRdexp, hk]

theorem commandEnd_wrexp_deselect (hop : s.aOp = 3) (hk : s.seq.xact = 2) : commandEnd s = complete 0 s := by
  rw [commandEnd_wrexp hop, endWrexp, hk]

/-! ### Each frame of an expansion access, with what follows it -/

theorem run_select (hb : s.busy = true) (hseq : s.seq = Seq.startOf 0) (hop : s.aOp = 2 ∨ s.aOp = 3)
    (hr : NoReset (writeFrameLen s.cfg) s) :
    run (writeFrameLen s.cfg) s = .next (startFrame 1 (afterWrite s.cfg.selReg (selectValue s) s)) :=
  have hk : s.seq.xact = 0 := congrArg Seq.xact hseq
  run_write_transaction hb hseq (currentTransaction_select hop hk) hr (commandEnd_select hop hk)

theorem run_rdexp_data (hb : s.busy = true) (hseq : s.seq = Seq.startOf 1) (hop : s.aOp = 2)
    (hr : NoReset (readFrameLen s.cfg) s) :
    run (readFrameLen s.cfg) s = .next (startFrame 2 (afterRead s.cfg.dataReg s)) :=
  have hk : s.seq.xact = 1 := congrArg Seq.xact hseq
  run_read_transaction hb hseq (currentTransaction_rdexp_data hop hk) hr (commandEnd_expansion_data (.inl hop) hk)

theorem run_wrexp_data (hb : s.busy = true) (hseq : s.seq = Seq.startOf 1) (hop : s.aOp = 3)
    (hr : NoReset (writeFrameLen s.cfg) s) :
    run (writeFrameLen s.cfg) s = .next (startFrame 2 (afterWrite s.cfg.dataReg s.aVal s)) :=
  have hk : s.seq.xact = 1 := congrArg Seq.xact hseq
  run_write_transaction hb hseq (currentTransaction_wrexp_data hop hk) hr (commandEnd_expansion_data (.inr hop) hk)

theorem run_rdexp_deselect (hb : s.busy = true) (hseq : s.seq = Seq.startOf 2) (hop : s.aOp = 2)
    (hr : NoReset (writeFrameLen s.cfg) s) :
    run (writeFrameLen s.cfg) s = .next (complete s.shr (afterWrite s.cfg.selReg 0 s)) :=
  have hk : s.seq.xact = 2 := congrArg Seq.xact hseq
  run_write_transaction hb hseq (currentTransaction_deselect (.inl hop) hk) hr (commandEnd_rdexp_deselect hop hk)

theorem run_wrexp_deselect (hb : s.busy = true) (hseq : s.seq = Seq.startOf 2) (hop : s.aOp = 3)
    (hr : NoReset (writeFrameLen s.cfg) s) :
    run (writeFrameLen s.cfg) s = .next (complete 0 (afterWrite s.cfg.selReg 0 s)) :=
  have hk : s.seq.xact = 2 := congrArg Seq.xact hseq
  run_write_transaction hb hseq (currentTransaction_deselect (.inr hop) hk) hr (commandEnd_wrexp_deselect hop hk)

end

/-! ### The two commands -/

section
variable {s : State} {a : CmdOperands}

theorem invalidRdexp_iff : invalidRdexp a = true ↔ a.dev > 31 ∨ a.reg > 0xFFFF := by
  simp [invalidRdexp, badDev, badReg16]

theorem invalidWrexp_iff : invalidWrexp a = true ↔ a.dev > 31 ∨ a.reg > 0xFFFF ∨ a.val > 0xFFFF := by
  simp [invalidWrexp, badDev, badReg16, badVal, or_assoc]

theorem exec_rdexp_rejected (hb : s.busy = false) (hbad : a.dev > 31 ∨ a.reg > 0xFFFF) :
    exec (.rdexp a) s = .next (rejected s) := by
  rw [exec, execRdexp, invalidRdexp_iff.mpr hbad, accept_invalid hb]

theorem exec_wrexp_rejected (hb : s.busy = false) (hbad : a.dev > 31 ∨ a.reg > 0xFFFF ∨ a.val > 0xFFFF) :
    exec (.wrexp a) s = .next (rejected s) := by
  rw [exec, execWrexp, invalidWrexp_iff.mpr hbad, accept_invalid hb]

theorem exec_rdexp_accepted (hb : s.busy = false) (hdev : a.dev ≤ 31) (hreg : a.reg ≤ 0xFFFF) :
    exec (.rdexp a) s = .next (beginCommand (latch 2 a (clearDone s))) := by
  have hvalid : invalidRdexp a = false := by simp [invalidRdexp, badDev, badReg16, hdev, hreg]
  rw [exec, execRdexp, hvalid, accept_valid hb]

theorem exec_wrexp_accepted (hb : s.busy = false) (hdev : a.dev ≤ 31) (hreg : a.reg ≤ 0xFFFF) (hval : a.val ≤ 0xFFFF) :
    exec (.wrexp a) s = .next (beginCommand (latch 3 a (clearDone s))) := by
  have hvalid : invalidWrexp a = false := by simp [invalidWrexp, badDev, badReg16, badVal, hdev, hreg, hval]
  rw [exec, execWrexp, hvalid, accept_valid hb]

/-- A valid `RDEXP` is its select, its read and its deselect (42_expansion_access.md R111); the value read is still in
`SHR` at the end, where it becomes the result. -/
theorem issue_rdexp (hb : s.busy = false) (hdev : a.dev ≤ 31) (hreg : a.reg ≤ 0xFFFF)
    (hr : NoReset (writeFrameLen s.cfg + readFrameLen s.cfg + writeFrameLen s.cfg) s) :
    issue (.rdexp a) (writeFrameLen s.cfg + readFrameLen s.cfg + writeFrameLen s.cfg) s = .next (ended s 2 a
      { events :=
          writeFrameEvents s.cfg (BitVec.ofNat 5 a.dev) s.cfg.selReg (BitVec.ofNat 16 a.reg ||| s.cfg.pageSelBits)
          ++ readFrameEvents s.cfg (BitVec.ofNat 5 a.dev) s.cfg.dataReg (s.env.levels 16)
          ++ writeFrameEvents s.cfg (BitVec.ofNat 5 a.dev) s.cfg.selReg 0,
        steps := writeFrameLen s.cfg + readFrameLen s.cfg + writeFrameLen s.cfg, value := s.env.word 0, code := .ok,
        m1 := false, polls := 0, shr := s.env.word 0, env := s.env.skip 16, lastBit := false }) := by
  rw [issue_of_exec (exec_rdexp_accepted hb hdev hreg)]
  have hselect := run_select (s := beginCommand (latch 2 a (clearDone s))) rfl rfl (.inl rfl) (hr.mono (by simp))
  have hread := (run_add hselect).trans (run_rdexp_data rfl rfl rfl
    (hr.after (writeFrameLen s.cfg) (Nat.le_add_right _ _) rfl))
  have hdeselect := (run_add hread).trans (run_rdexp_deselect rfl rfl rfl
    (hr.after (writeFrameLen s.cfg + readFrameLen s.cfg) le_rfl (by simp [afterRead, afterWrite])))
  exact hdeselect.trans (by simp [complete, finish, Seq.idle, afterRead, afterWrite, ended, selectValue])

/-- A valid `WREXP` is its select, its write and its deselect (42_expansion_access.md R110). -/
theorem issue_wrexp (hb : s.busy = false) (hdev : a.dev ≤ 31) (hreg : a.reg ≤ 0xFFFF) (hval : a.val ≤ 0xFFFF)
    (hr : NoReset (3 * writeFrameLen s.cfg) s) :
    issue (.wrexp a) (3 * writeFrameLen s.cfg) s = .next (ended s 3 a
      { events :=
          writeFrameEvents s.cfg (BitVec.ofNat 5 a.dev) s.cfg.selReg (BitVec.ofNat 16 a.reg ||| s.cfg.pageSelBits)
          ++ writeFrameEvents s.cfg (BitVec.ofNat 5 a.dev) s.cfg.dataReg (BitVec.ofNat 16 a.val)
          ++ writeFrameEvents s.cfg (BitVec.ofNat 5 a.dev) s.cfg.selReg 0,
        steps := 3 * writeFrameLen s.cfg, value := 0, code := .ok, m1 := false, polls := 0, shr := s.shr, env := s.env,
        lastBit := false }) := by
  have hlen : 3 * writeFrameLen s.cfg = writeFrameLen s.cfg + writeFrameLen s.cfg + writeFrameLen s.cfg := by omega
  rw [hlen] at hr ⊢
  rw [issue_of_exec (exec_wrexp_accepted hb hdev hreg hval)]
  have hselect := run_select (s := beginCommand (latch 3 a (clearDone s))) rfl rfl (.inr rfl) (hr.mono (by simp))
  have hwrite := (run_add hselect).trans (run_wrexp_data rfl rfl rfl
    (hr.after (writeFrameLen s.cfg) (Nat.le_add_right _ _) rfl))
  have hdeselect := (run_add hwrite).trans (run_wrexp_deselect rfl rfl rfl
    (hr.after (writeFrameLen s.cfg + writeFrameLen s.cfg) le_rfl (by simp [afterWrite])))
  exact hdeselect.trans (by simp [complete, finish, Seq.idle, afterWrite, ended, selectValue])

end

/-- Settles O27: a bad operand ends the command at its accept step (`exec_rdexp_rejected`), and a valid command is its
three frames (`issue_rdexp`). -/
theorem rdexpSelectsReadsDeselects : Obligations.RdexpSelectsReadsDeselects := fun _ _ hready =>
  ⟨exec_rdexp_rejected hready.busy, issue_rdexp hready.busy⟩

/-- Settles O28: a bad operand ends the command at its accept step (`exec_wrexp_rejected`), and a valid command is its
three frames (`issue_wrexp`). -/
theorem wrexpSelectsWritesDeselects : Obligations.WrexpSelectsWritesDeselects := fun _ _ hready =>
  ⟨exec_wrexp_rejected hready.busy, issue_wrexp hready.busy⟩

/-- Settles O34: every command in it is run to its end by its own lemma (`issue_wrexp`, `issue_rdexp`, `issue_wrreg`,
`issue_rdreg`), and the events those lemmas give are the same frames in the same order. -/
theorem expansionTraceIdentities : Obligations.ExpansionTraceIdentities := by
  intro s d x v hready hd hx hv hr w r select deselect
  replace hr : NoReset (3 * w + r) s := hr
  have hsel : s.cfg.selReg.toNat ≤ 31 := Nat.le_of_lt_succ s.cfg.selReg.isLt
  have hdata : s.cfg.dataReg.toNat ≤ 31 := Nat.le_of_lt_succ s.cfg.dataReg.isLt
  have hvalue : (BitVec.ofNat 16 x ||| s.cfg.pageSelBits).toNat ≤ 0xFFFF := Nat.le_of_lt_succ (BitVec.isLt _)
  have hselect := issue_wrreg (a := ⟨d, s.cfg.selReg.toNat, (BitVec.ofNat 16 x ||| s.cfg.pageSelBits).toNat, 0⟩)
    hready.busy hd hsel hvalue (hr.mono (show w ≤ 3 * w + r by omega))
  constructor
  · have hcommand := issue_wrexp (a := ⟨d, x, v, 0⟩) hready.busy hd hx hv (hr.mono (show 3 * w ≤ 3 * w + r by omega))
    refine ⟨_, _, _, _, hcommand, hselect,
      issue_wrreg (s := ended s 1 _ _) rfl hd hdata hv (hr.after (n := w) w (by omega) rfl),
      issue_wrreg (s := ended (ended s 1 _ _) 1 _ _) rfl hd hsel (Nat.zero_le _)
        (hr.after (n := w) (w + w) (by omega) List.drop_drop), ?_⟩
    simp [ended, -BitVec.toNat_or]
  · have hcommand := issue_rdexp (a := ⟨d, x, 0, 0⟩) hready.busy hd hx (hr.mono (show w + r + w ≤ 3 * w + r by omega))
    refine ⟨_, _, _, _, hcommand, hselect,
      issue_rdreg (s := ended s 1 _ _) rfl hd hdata (hr.after (n := r) w (by omega) rfl),
      issue_wrreg (s := ended (ended s 1 _ _) 0 _ _) rfl hd hsel (Nat.zero_le _)
        (hr.after (n := w) (w + r) (by omega) List.drop_drop), ?_, rfl⟩
    simp [ended, -BitVec.toNat_or]

end Sys2Proof.Machine
end


section
/-! PROOFS. The three device operations as whole commands: `CHKDEV`, `LINK` and `RSTDEV` (43_device_ops.md R120, R121,
R122). -/

namespace Sys2Proof.Machine

/-! ### Reads one after the other -/

theorem Env.word_skip (k : Nat) (e : Env) : (e.skip 16).word k = e.word (k + 1) := rfl

theorem Env.word_afterReads (k : Nat) (e : Env) : (e.afterReads k).word 0 = e.word k := rfl

/-- One more read of the same register comes after the first `k` (43_device_ops.md R121). -/
theorem readsEvents_succ (c : Config) (d r : Addr5) (k : Nat) (e : Env) :
    readsEvents c d r (k + 1) e = readsEvents c d r k e ++ readFrameEvents c d r ((e.afterReads k).levels 16) := by
  induction k generalizing e with
  | zero => rw [readsEvents, readsEvents, readsEvents, List.append_nil, List.nil_append, Env.afterReads]
  | succ k ih => rw [readsEvents, ih, readsEvents, List.append_assoc, Env.afterReads]

/-! ### Each frame of a device operation, up to its end-of-transaction logic -/

section
variable {s t : State}

theorem currentTransaction_chkdev_high (hop : s.aOp = 4) (hk : s.seq.xact = 0) :
    currentTransaction s = some (memRead s.cfg.idHiReg) := by
  simp [currentTransaction, xactChkdev, hop, hk]

theorem currentTransaction_chkdev_low (hop : s.aOp = 4) (hk : s.seq.xact = 1) :
    currentTransaction s = some (memRead s.cfg.idLoReg) := by
  simp [currentTransaction, xactChkdev, hop, hk]

theorem currentTransaction_link (hop : s.aOp = 6) (hk : s.seq.xact = 0 ∨ s.seq.xact = 1) :
    currentTransaction s = some (memRead s.cfg.statusReg) := by
  rcases hk with hk | hk <;> simp [currentTransaction, xactLink, hop, hk]

theorem currentTransaction_rstdev_write (hop : s.aOp = 5) (hk : s.seq.xact = 0) :
    currentTransaction s = some (memWrite s.cfg.ctrlReg s.cfg.resetMask) := by
  simp [currentTransaction, xactRstdev, hop, hk]

theorem currentTransaction_rstdev_poll (hop : s.aOp = 5) (hk : s.seq.xact = 1) :
    currentTransaction s = some (memRead s.cfg.ctrlReg) := by
  simp [currentTransaction, xactRstdev, hop, hk]

/-- The first read of `CHKDEV` (43_device_ops.md R120). -/
theorem run_chkdev_high (hb : s.busy = true) (hseq : s.seq = Seq.startOf 0) (hop : s.aOp = 4)
    (hr : NoReset (readFrameLen s.cfg) s) (hend : endChkdev (afterRead s.cfg.idHiReg s) = t) :
    run (readFrameLen s.cfg) s = .next t :=
  run_read_transaction hb hseq (currentTransaction_chkdev_high hop (congrArg Seq.xact hseq)) hr
    ((commandEnd_chkdev (s := afterRead _ s) hop).trans hend)

/-- The second read of `CHKDEV` (43_device_ops.md R120). -/
theorem run_chkdev_low (hb : s.busy = true) (hseq : s.seq = Seq.startOf 1) (hop : s.aOp = 4)
    (hr : NoReset (readFrameLen s.cfg) s) (hend : endChkdev (afterRead s.cfg.idLoReg s) = t) :
    run (readFrameLen s.cfg) s = .next t :=
  run_read_transaction hb hseq (currentTransaction_chkdev_low hop (congrArg Seq.xact hseq)) hr
    ((commandEnd_chkdev (s := afterRead _ s) hop).trans hend)

/-- Both reads of `LINK` are of the status register (43_device_ops.md R122). -/
theorem run_link_read {k : Fin 3} (hk : k = 0 ∨ k = 1) (hb : s.busy = true) (hseq : s.seq = Seq.startOf k)
    (hop : s.aOp = 6) (hr : NoReset (readFrameLen s.cfg) s) (hend : endLink (afterRead s.cfg.statusReg s) = t) :
    run (readFrameLen s.cfg) s = .next t := by
  have hxact : s.seq.xact = 0 ∨ s.seq.xact = 1 := by rwa [hseq]
  exact run_read_transaction hb hseq (currentTransaction_link hop hxact) hr
    ((commandEnd_link (s := afterRead _ s) hop).trans hend)

/-- The reset write of `RSTDEV`: exactly `RESET_MASK`, then the first poll (43_device_ops.md R121). -/
theorem run_rstdev_write (hb : s.busy = true) (hseq : s.seq = Seq.startOf 0) (hop : s.aOp = 5)
    (hr : NoReset (writeFrameLen s.cfg) s) :
    run (writeFrameLen s.cfg) s = .next (startFrame 1 (afterWrite s.cfg.ctrlReg s.cfg.resetMask s)) :=
  have hk : s.seq.xact = 0 := congrArg Seq.xact hseq
  run_write_transaction hb hseq (currentTransaction_rstdev_write hop hk) hr
    ((commandEnd_rstdev (s := afterWrite _ _ s) hop).trans (endRstdev_write hk))

end

/-! ### The accept steps (60_exceptions.md R140) -/

section
variable {s : State} {a : CmdOperands}

theorem invalidChkdev_iff : invalidChkdev a = true ↔ a.dev > 31 ∨ a.val > 0xFFFF ∨ a.val2 > 0xFFFF := by
  simp [invalidChkdev, badDev, badVal, badVal2, or_assoc]

theorem exec_chkdev_rejected (hb : s.busy = false) (hbad : a.dev > 31 ∨ a.val > 0xFFFF ∨ a.val2 > 0xFFFF) :
    exec (.chkdev a) s = .next (rejected s) := by
  rw [exec, execChkdev, invalidChkdev_iff.mpr hbad, accept_invalid hb]

theorem exec_link_rejected (hb : s.busy = false) (hbad : a.dev > 31) : exec (.link a) s = .next (rejected s) := by
  rw [exec, execLink, invalidLink, badDev, decide_eq_true hbad, accept_invalid hb]

theorem exec_rstdev_rejected (hb : s.busy = false) (hbad : a.dev > 31) : exec (.rstdev a) s = .next (rejected s) := by
  rw [exec, execRstdev, invalidRstdev, badDev, decide_eq_true hbad, accept_invalid hb]

theorem exec_chkdev_accepted (hb : s.busy = false) (hdev : a.dev ≤ 31) (hval : a.val ≤ 0xFFFF)
    (hval2 : a.val2 ≤ 0xFFFF) :
    exec (.chkdev a) s = .next (beginCommand (latch 4 a (clearDone s))) := by
  have hvalid : invalidChkdev a = false := by simp [invalidChkdev, badDev, badVal, badVal2, hdev, hval, hval2]
  rw [exec, execChkdev, hvalid, accept_valid hb]

theorem exec_link_accepted (hb : s.busy = false) (hdev : a.dev ≤ 31) :
    exec (.link a) s = .next (beginCommand (latch 6 a (clearDone s))) := by
  rw [exec, execLink, invalidLink, badDev, decide_eq_false (Nat.not_lt.mpr hdev), accept_valid hb]

theorem exec_rstdev_accepted (hb : s.busy = false) (hdev : a.dev ≤ 31) :
    exec (.rstdev a) s = .next (beginCommand (latch 5 a (clearDone s))) := by
  rw [exec, execRstdev, invalidRstdev, badDev, decide_eq_false (Nat.not_lt.mpr hdev), accept_valid hb]

/-! ### `CHKDEV` (43_device_ops.md R120) -/

/-- With the short circuit, a first register that does not match ends `CHKDEV` after its one read. -/
theorem issue_chkdev_shortCircuit (hb : s.busy = false) (hdev : a.dev ≤ 31) (hval : a.val ≤ 0xFFFF)
    (hval2 : a.val2 ≤ 0xFFFF) (hne : s.env.word 0 ≠ BitVec.ofNat 16 a.val) (hshort : s.cfg.idShortCircuit = true)
    (hr : NoReset (readFrameLen s.cfg) s) :
    issue (.chkdev a) (readFrameLen s.cfg) s = .next (ended s 4 a
      { events := readFrameEvents s.cfg (BitVec.ofNat 5 a.dev) s.cfg.idHiReg (s.env.levels 16),
        steps := readFrameLen s.cfg, value := 0, code := .ok, m1 := false, polls := 0, shr := s.env.word 0,
        env := s.env.afterReads 1, lastBit := s.cfg.idHiReg.getLsbD 0 }) := by
  rw [issue_of_exec (exec_chkdev_accepted hb hdev hval hval2)]
  have hread := run_chkdev_high (s := beginCommand (latch 4 a (clearDone s))) rfl rfl rfl hr
    (endChkdev_mismatch rfl hne hshort)
  exact hread.trans (by
    simp [complete, finish, Seq.idle, setM1, idHighMatches, afterRead, ended, Env.afterReads, hne])

/-- Otherwise `CHKDEV` reads both registers, and its result is that both match. -/
theorem issue_chkdev_twoReads (hb : s.busy = false) (hdev : a.dev ≤ 31) (hval : a.val ≤ 0xFFFF)
    (hval2 : a.val2 ≤ 0xFFFF) (hgo : s.env.word 0 = BitVec.ofNat 16 a.val ∨ s.cfg.idShortCircuit = false)
    (hr : NoReset (2 * readFrameLen s.cfg) s) :
    issue (.chkdev a) (2 * readFrameLen s.cfg) s = .next (ended s 4 a
      { events := readFrameEvents s.cfg (BitVec.ofNat 5 a.dev) s.cfg.idHiReg (s.env.levels 16)
          ++ readFrameEvents s.cfg (BitVec.ofNat 5 a.dev) s.cfg.idLoReg ((s.env.skip 16).levels 16),
        steps := 2 * readFrameLen s.cfg,
        value := boolResult (decide (s.env.word 0 = BitVec.ofNat 16 a.val)
          && decide (s.env.word 1 = BitVec.ofNat 16 a.val2)),
        code := .ok, m1 := decide (s.env.word 0 = BitVec.ofNat 16 a.val), polls := 0, shr := s.env.word 1,
        env := s.env.afterReads 2, lastBit := s.cfg.idLoReg.getLsbD 0 }) := by
  rw [Nat.two_mul] at hr ⊢
  rw [issue_of_exec (exec_chkdev_accepted hb hdev hval hval2)]
  have hfirst := run_chkdev_high (s := beginCommand (latch 4 a (clearDone s))) rfl rfl rfl
    (hr.mono (Nat.le_add_right _ _)) (endChkdev_goes_on rfl hgo)
  have hsecond := (run_add hfirst).trans (run_chkdev_low rfl rfl rfl (hr.after (readFrameLen s.cfg) le_rfl rfl) rfl)
  refine hsecond.trans ?_
  simp [endChkdev, complete, finish, Seq.idle, setM1, idHighMatches, idLowMatches, afterRead, ended, Env.afterReads,
    Env.word_skip]

/-! ### `LINK` (43_device_ops.md R122) -/

/-- A first read that shows the link bit ends `LINK`. -/
theorem issue_link_up (hb : s.busy = false) (hdev : a.dev ≤ 31) (hup : s.env.word 0 &&& s.cfg.linkMask ≠ 0)
    (hr : NoReset (readFrameLen s.cfg) s) :
    issue (.link a) (readFrameLen s.cfg) s = .next (ended s 6 a
      { events := readFrameEvents s.cfg (BitVec.ofNat 5 a.dev) s.cfg.statusReg (s.env.levels 16),
        steps := readFrameLen s.cfg, value := 1, code := .ok, m1 := false, polls := 0, shr := s.env.word 0,
        env := s.env.afterReads 1, lastBit := s.cfg.statusReg.getLsbD 0 }) := by
  rw [issue_of_exec (exec_link_accepted hb hdev)]
  have hread := run_link_read (s := beginCommand (latch 6 a (clearDone s))) (.inl rfl) rfl rfl rfl hr
    (endLink_up (.inl rfl) hup)
  exact hread.trans (by simp [complete, finish, Seq.idle, afterRead, ended, Env.afterReads])

/-- A first read without the link bit is followed by exactly one more, whose bit is the result. -/
theorem issue_link_twoReads (hb : s.busy = false) (hdev : a.dev ≤ 31) (hdown : s.env.word 0 &&& s.cfg.linkMask = 0)
    (hr : NoReset (2 * readFrameLen s.cfg) s) :
    issue (.link a) (2 * readFrameLen s.cfg) s = .next (ended s 6 a
      { events := readFrameEvents s.cfg (BitVec.ofNat 5 a.dev) s.cfg.statusReg (s.env.levels 16)
          ++ readFrameEvents s.cfg (BitVec.ofNat 5 a.dev) s.cfg.statusReg ((s.env.skip 16).levels 16),
        steps := 2 * readFrameLen s.cfg, value := boolResult (maskTest (s.env.word 1) s.cfg.linkMask), code := .ok,
        m1 := false, polls := 0, shr := s.env.word 1, env := s.env.afterReads 2,
        lastBit := s.cfg.statusReg.getLsbD 0 }) := by
  rw [Nat.two_mul] at hr ⊢
  rw [issue_of_exec (exec_link_accepted hb hdev)]
  have hfirst := run_link_read (s := beginCommand (latch 6 a (clearDone s))) (.inl rfl) rfl rfl rfl
    (hr.mono (Nat.le_add_right _ _)) (endLink_down_first rfl hdown)
  have hsecond := (run_add hfirst).trans
    (run_link_read (.inr rfl) rfl rfl rfl (hr.after (readFrameLen s.cfg) le_rfl rfl) rfl)
  refine hsecond.trans ?_
  simp [endLink, linkBit, complete, finish, Seq.idle, afterRead, ended, Env.afterReads, Env.word_skip]

/-! ### `RSTDEV` (43_device_ops.md R121) -/

/-- A valid `RSTDEV` writes, and is then at its first poll. -/
theorem issue_rstdev_write (hb : s.busy = false) (hdev : a.dev ≤ 31) (hr : NoReset (writeFrameLen s.cfg) s) :
    issue (.rstdev a) (writeFrameLen s.cfg) s = .next (polling s a 0) := by
  rw [issue_of_exec (exec_rstdev_accepted hb hdev)]
  refine (run_rstdev_write (s := beginCommand (latch 5 a (clearDone s))) rfl rfl rfl hr).trans ?_
  simp [startFrame, Seq.startOf, afterWrite, polling, readsEvents, Env.afterReads, beginCommand, latch, clearDone]

/-- From one of its polls, `RSTDEV` runs one more read, and the end-of-transaction logic decides. -/
theorem run_poll {k : Nat} {t : State} (hr : NoReset (writeFrameLen s.cfg + (k + 1) * readFrameLen s.cfg) s)
    (hend : endRstdev (afterRead s.cfg.ctrlReg (polling s a k)) = t) :
    run (readFrameLen s.cfg) (polling s a k) = .next t := by
  rw [Nat.succ_mul, ← Nat.add_assoc] at hr
  exact run_read_transaction (s := polling s a k) (k := 1) rfl rfl (currentTransaction_rstdev_poll rfl rfl)
    (hr.after (writeFrameLen s.cfg + k * readFrameLen s.cfg) le_rfl rfl)
    ((commandEnd_rstdev (s := afterRead _ (polling s a k)) rfl).trans hend)

/-- A poll that ends the command, with either code, leaves the state of `pollEnding`. -/
theorem finish_poll (k : Nat) (code : Status) :
    finish (raise code (countPoll (afterRead s.cfg.ctrlReg (polling s a k)))) =
      ended s 5 a (pollEnding s a k code) := by
  simp [finish, raise, countPoll, afterRead, polling, ended, pollEnding, Seq.idle, readsEvents_succ,
    Env.word_afterReads, Env.afterReads_succ, Nat.succ_mul, Nat.add_assoc]

/-- A poll that goes on leaves the engine at the start of the next one. -/
theorem startFrame_poll (k : Nat) :
    startFrame 1 (countPoll (afterRead s.cfg.ctrlReg (polling s a k))) = polling s a (k + 1) := by
  simp [startFrame, Seq.startOf, countPoll, afterRead, polling, readsEvents_succ,
    Env.word_afterReads, Env.afterReads_succ, Nat.succ_mul, Nat.add_assoc]

theorem run_poll_clear {k : Nat} (hr : NoReset (writeFrameLen s.cfg + (k + 1) * readFrameLen s.cfg) s)
    (hclear : s.env.word k &&& s.cfg.resetMask = 0) :
    run (readFrameLen s.cfg) (polling s a k) = .next (ended s 5 a (pollEnding s a k .ok)) :=
  run_poll hr ((endRstdev_clear rfl hclear).trans (finish_poll k .ok))

theorem run_poll_timeout {k : Nat} (hr : NoReset (writeFrameLen s.cfg + (k + 1) * readFrameLen s.cfg) s)
    (hset : s.env.word k &&& s.cfg.resetMask ≠ 0) (hlimit : s.cfg.resetPollLimit = some (k + 1)) :
    run (readFrameLen s.cfg) (polling s a k) = .next (ended s 5 a (pollEnding s a k .timeout)) :=
  run_poll hr ((endRstdev_timeout rfl hset hlimit).trans (finish_poll k .timeout))

theorem run_poll_again {k : Nat} (hr : NoReset (writeFrameLen s.cfg + (k + 1) * readFrameLen s.cfg) s)
    (hset : s.env.word k &&& s.cfg.resetMask ≠ 0) (hlimit : s.cfg.resetPollLimit ≠ some (k + 1)) :
    run (readFrameLen s.cfg) (polling s a k) = .next (polling s a (k + 1)) :=
  run_poll hr ((endRstdev_again rfl hset hlimit).trans (startFrame_poll k))

/-- After `k` polls that all showed the reset bit set, with a limit not reached by them, a valid `RSTDEV` is at the start
of the next poll: each of them went on (`run_poll_again`). -/
theorem issue_rstdev_polling (hb : s.busy = false) (hdev : a.dev ≤ 31) (k : Nat)
    (hset : ∀ j < k, s.env.word j &&& s.cfg.resetMask ≠ 0)
    (hlimit : ∀ limit, s.cfg.resetPollLimit = some limit → k < limit)
    (hr : NoReset (writeFrameLen s.cfg + k * readFrameLen s.cfg) s) :
    issue (.rstdev a) (writeFrameLen s.cfg + k * readFrameLen s.cfg) s = .next (polling s a k) := by
  induction k with
  | zero => simpa using issue_rstdev_write hb hdev (hr.mono (Nat.le_add_right _ _))
  | succ k ih =>
    have hbelow : s.cfg.resetPollLimit ≠ some (k + 1) := fun h => lt_irrefl _ (hlimit _ h)
    have hpolls := ih (fun j hj => hset j (Nat.lt_succ_of_lt hj))
      (fun limit h => (Nat.lt_succ_self k).trans (hlimit limit h))
      (hr.mono (Nat.add_le_add_left (Nat.mul_le_mul_right _ k.le_succ) _))
    rw [issue_of_exec (exec_rstdev_accepted hb hdev)] at hpolls ⊢
    rw [Nat.succ_mul, ← Nat.add_assoc, run_add hpolls]
    exact run_poll_again hr (hset k k.lt_succ_self) hbelow

end

/-- Settles O29: a bad operand ends the command at its accept step (`exec_chkdev_rejected`); a valid one ends after one
read (`issue_chkdev_shortCircuit`) or after two, with the conjunction of the comparisons (`issue_chkdev_twoReads`). -/
theorem chkdevComparesBothIdentityRegisters : Obligations.ChkdevComparesBothIdentityRegisters := by
  intro s a hready d match1 match2 first second afterTwo
  refine ⟨exec_chkdev_rejected hready.busy, fun hdev hval hval2 =>
    ⟨issue_chkdev_shortCircuit hready.busy hdev hval hval2, fun hne hshort hr => ?_, fun heq hne hr => ?_,
      fun heq heq2 hr => ?_⟩⟩
  · rw [issue_chkdev_twoReads hready.busy hdev hval hval2 (.inr hshort) hr, decide_eq_false hne]
    rfl
  · rw [issue_chkdev_twoReads hready.busy hdev hval hval2 (.inl heq) hr, decide_eq_true heq, decide_eq_false hne]
    rfl
  · rw [issue_chkdev_twoReads hready.busy hdev hval hval2 (.inl heq) hr, decide_eq_true heq, decide_eq_true heq2]
    rfl

/-- Settles O30: a bad operand ends the command at its accept step (`exec_link_rejected`); a valid one ends after one read
that shows the link bit (`issue_link_up`) or after two, with the second value's bit (`issue_link_twoReads`). -/
theorem linkReadsTwiceWhenDown : Obligations.LinkReadsTwiceWhenDown := by
  intro s a hready d first second afterTwo
  refine ⟨exec_link_rejected hready.busy, fun hdev => ⟨issue_link_up hready.busy hdev, fun hdown hup hr => ?_,
    fun hdown hdown2 hr => ?_⟩⟩
  · rw [issue_link_twoReads hready.busy hdev hdown hr, maskTest_true hup]
    rfl
  · rw [issue_link_twoReads hready.busy hdev hdown hr, maskTest_false hdown2]
    rfl

/-- Settles O31: a bad operand ends the command at its accept step (`exec_rstdev_rejected`); a valid one reaches each poll
by induction on the polls before it (`issue_rstdev_polling`), and the clear test and then the limit test say how that poll
ends. -/
theorem rstdevPollLoop : Obligations.RstdevPollLoop := fun _ _ hready =>
  ⟨exec_rstdev_rejected hready.busy, fun k hdev hset hlimit hr =>
    ⟨issue_rstdev_polling hready.busy hdev k hset hlimit
      (hr.mono (Nat.add_le_add_left (Nat.mul_le_mul_right _ k.le_succ) _)),
      run_poll_clear hr, run_poll_timeout hr, run_poll_again hr⟩⟩

end Sys2Proof.Machine
end

section
/-! PROOFS. The exceptions (60_exceptions.md): the one step that writes `TIMEOUT`, the poll loop that never ends, and
the accept step of every command. -/

namespace Sys2Proof.Machine

/-! ### Where `TIMEOUT` comes from (60_exceptions.md R141) -/

/-- The end of a transaction writes `TIMEOUT` only at a finite limit. -/
theorem commandEnd_status_ne_timeout {s : State} {x : Transaction} (hx : currentTransaction s = some x)
    (hlimit : s.cfg.resetPollLimit = none) (hs : s.status ≠ .timeout) : (commandEnd s).status ≠ .timeout := by
  rcases commandEnd_cases hx with ⟨k, u, e, -, hu⟩ | ⟨v, u, e, -⟩ | ⟨-, -, hreached⟩
  · rw [e]
    rcases hu with rfl | ⟨rfl, -⟩ | ⟨rfl, -⟩ <;> exact hs
  · simp [e]
  · simp [hlimit] at hreached

/-- A row writes `STATUS` in the end-of-transaction logic only. -/
theorem frameStep_status_ne_timeout {d : Addr5} {x : Transaction} {s t : State} (h : frameStep d x s = .next t)
    (hlimit : s.cfg.resetPollLimit = none) (hs : s.status ≠ .timeout) : t.status ≠ .timeout := by
  obtain ⟨e, u, ⟨hcommand, hprogress, -⟩, hend⟩ := frameStep_rowStep h
  rw [← hcommand.cfg] at hlimit
  rw [← hprogress.status] at hs
  rcases hend with rfl | ⟨⟨y, hy⟩, rfl⟩
  · exact hs
  · exact commandEnd_status_ne_timeout hy hlimit hs

/-- Reset writes `OK`, a rejection `INVALID_ARGUMENT`, and accepting and waiting nothing: without a limit there is no
`TIMEOUT`. -/
theorem step_status_ne_timeout {s t : State} (hlimit : s.cfg.resetPollLimit = none) (h : step s = .next t)
    (hs : s.status ≠ .timeout) : t.status ≠ .timeout := by
  cases hr : (hostPins s).rst with
  | true =>
    rw [step_reset hr] at h
    cases h
    simp
  | false =>
    cases hb : s.busy with
    | true =>
      obtain ⟨x, -, hrow⟩ := step_busy_cases hb hr h
      exact frameStep_status_ne_timeout (s := nextInput s) hrow hlimit hs
    | false =>
      rcases step_idle_cases hr hb h with ⟨-, rfl⟩ | ⟨op, a, -, -, rfl⟩ | ⟨-, rfl⟩
      · simp [rejected]
      · exact hs
      · exact hs

section
variable {s : State} {a : CmdOperands}

/-- With the reset bit set in as many polls as the limit allows, `RSTDEV` reaches the last of them
(`issue_rstdev_polling`), which ends it (`run_poll_timeout`). -/
theorem issue_rstdev_timeout {k : Nat} (hb : s.busy = false) (hdev : a.dev ≤ 31)
    (hlimit : s.cfg.resetPollLimit = some (k + 1)) (hset : ∀ j < k + 1, s.env.word j &&& s.cfg.resetMask ≠ 0)
    (hr : NoReset (writeFrameLen s.cfg + (k + 1) * readFrameLen s.cfg) s) :
    issue (.rstdev a) (writeFrameLen s.cfg + (k + 1) * readFrameLen s.cfg) s =
      .next (ended s 5 a (pollEnding s a k .timeout)) := by
  have hpolls := issue_rstdev_polling hb hdev k (fun j hj => hset j (Nat.lt_succ_of_lt hj))
    (fun limit h => Option.some.inj (hlimit.symm.trans h) ▸ k.lt_succ_self)
    (hr.mono (Nat.add_le_add_left (Nat.mul_le_mul_right _ k.le_succ) _))
  rw [issue_of_exec (exec_rstdev_accepted hb hdev)] at hpolls ⊢
  rw [Nat.succ_mul, ← Nat.add_assoc, run_add hpolls]
  exact run_poll_timeout hr (hset k k.lt_succ_self) hlimit

end

/-- Settles O32: the poll that reaches the limit ends the command (`issue_rstdev_timeout`), a limit is at least 1
(`resetPollLimit_ge`), and `TIMEOUT` is written by no other step (`step_status_ne_timeout`). -/
theorem rstdevTimesOutAtTheLimit : Obligations.RstdevTimesOutAtTheLimit :=
  ⟨fun _ _ _ hready hdev hlimit hset hr =>
    ⟨_, issue_rstdev_timeout hready.busy hdev hlimit hset hr, rfl, rfl, rfl, rfl, hready.lines.mdcOe, rfl, rfl⟩,
    fun _ _ => resetPollLimit_ge, fun _ _ => step_status_ne_timeout⟩

/-! ### A run with a line event in every step

Only a busy block makes line events, one in each step (10_state.md R15). So a run whose trace grows by its number of
steps is busy at every step of it, whatever the host presents meanwhile. -/

/-- `n` steps without a reset lead from `s` to `t`, and as many line events. -/
structure EventEachStep (n : Nat) (s t : State) : Prop where
  reaches : run n s = .next t
  noReset : NoReset n s
  events : t.trace.length = s.trace.length + n

theorem step_hostIn {s t : State} (hr : (hostPins s).rst = false) (h : step s = .next t) :
    t.hostIn = s.hostIn.tail := by
  cases hb : s.busy with
  | true =>
    obtain ⟨x, -, hrow⟩ := step_busy_cases hb hr h
    exact (frameStep_sameCommand hrow).hostIn
  | false => rcases step_idle_cases hr hb h with ⟨-, rfl⟩ | ⟨op, a, -, -, rfl⟩ | ⟨-, rfl⟩ <;> rfl

/-- A step makes at most one line event, and one only in a busy block (10_state.md R15, R24). -/
theorem step_trace_length {s t : State} (hr : (hostPins s).rst = false) (h : step s = .next t) :
    t.trace.length = s.trace.length + s.busy.toNat := by
  obtain ⟨hbusy, hidle⟩ := oneLineEventPerBusyStep s t hr h
  cases hb : s.busy with
  | true =>
    obtain ⟨e, he⟩ := hbusy hb
    simp [he]
  | false => simp [hidle hb]

theorem NoReset.of_step {n : Nat} {s t : State} (hr : NoReset (n + 1) s) (h : step s = .next t) : NoReset n t :=
  NoReset.drop (m := 1) (hr.mono (Nat.add_comm 1 n).le) (by rw [step_hostIn hr.head h, List.drop_one])

theorem step_of_run_succ {n : Nat} {s t : State} (h : run (n + 1) s = .next t) :
    ∃ u, step s = .next u ∧ run n u = .next t := by
  unfold run at h
  cases hs : step s with
  | next u => exact ⟨u, rfl, by simpa [hs] using h⟩
  | fault r => simp [hs] at h
  | refused r => simp [hs] at h

/-- A run makes at most one line event a step. -/
theorem run_trace_length_le {n : Nat} {s t : State} (hr : NoReset n s) (h : run n s = .next t) :
    t.trace.length ≤ s.trace.length + n := by
  induction n generalizing s with
  | zero =>
    cases h
    exact Nat.le_refl _
  | succ n ih =>
    obtain ⟨u, hstep, hrun⟩ := step_of_run_succ h
    have hrest := ih (hr.of_step hstep) hrun
    have hone := step_trace_length hr.head hstep
    have hle := s.busy.toNat_le
    omega

/-- The first step of such a run is a busy one, and the rest is such a run. -/
theorem EventEachStep.first {n : Nat} {s t : State} (h : EventEachStep (n + 1) s t) :
    s.busy = true ∧ ∃ u, step s = .next u ∧ EventEachStep n u t := by
  obtain ⟨hrun, hr, hevents⟩ := h
  obtain ⟨u, hstep, hrest⟩ := step_of_run_succ hrun
  have hle := run_trace_length_le (hr.of_step hstep) hrest
  have hone := step_trace_length hr.head hstep
  cases hb : s.busy with
  | true =>
    rw [hb, Bool.toNat_true] at hone
    exact ⟨rfl, u, hstep, hrest, hr.of_step hstep, by omega⟩
  | false =>
    rw [hb, Bool.toNat_false] at hone
    omega

/-- Before its end such a run stays in one command, which does not complete. -/
theorem EventEachStep.stays_busy {m : Nat} (n : Nat) {s t : State} (h : EventEachStep (n + m + 1) s t) :
    ∃ u, run n s = .next u ∧ u.busy = true ∧ u.done = s.done ∧ u.aOp = s.aOp := by
  induction n generalizing s with
  | zero => exact ⟨s, rfl, h.first.1, rfl, rfl⟩
  | succ n ih =>
    rw [Nat.succ_add] at h
    obtain ⟨hb, v, hstep, hrest⟩ := h.first
    obtain ⟨hresponse, hlatches⟩ := responseHoldsBetweenCompletions s v h.noReset.head hstep
    have hdone : v.done = s.done := (hresponse (hrest.first.1.trans hb.symm) (.inl hb)).2.2
    have hop : v.aOp = s.aOp := (hlatches (.inl hb)).1
    obtain ⟨u, hrun, hbusy, hdone', hop'⟩ := ih hrest
    exact ⟨u, (run_succ hstep).trans hrun, hbusy, hdone'.trans hdone, hop'.trans hop⟩

/-! ### The poll loop without a limit (60_exceptions.md R145) -/

theorem countsPerCall_all : CountsPerCall (fun _ => true) 1 3 2 3 := ⟨fun _ => rfl, fun _ => rfl, rfl, fun _ => rfl⟩

/-- A write frame has as many line events as engine steps (40_codec.md R89). -/
theorem length_writeFrameEvents (c : Config) (d r : Addr5) (v : Word16) :
    (writeFrameEvents c d r v).length = writeFrameLen c := by
  rw [← List.countP_true, countsPerCall_all.writeFrameEvents, writeFrameLen]
  omega

/-- A read frame has as many line events as engine steps (40_codec.md R89). -/
theorem length_readFrameEvents (c : Config) (d r : Addr5) (e : Env) :
    (readFrameEvents c d r (e.levels 16)).length = readFrameLen c := by
  rw [← List.countP_true, countsPerCall_all.readFrameEvents, Env.length_levels, readFrameLen]
  omega

theorem length_readsEvents (c : Config) (d r : Addr5) (k : Nat) (e : Env) :
    (readsEvents c d r k e).length = k * readFrameLen c := by
  induction k generalizing e with
  | zero => simp [readsEvents]
  | succ k ih => rw [readsEvents, List.length_append, length_readFrameEvents, ih, Nat.succ_mul, Nat.add_comm]

/-- Without a limit, and with the reset bit set in every poll, any number of polls follows the accept
(`issue_rstdev_polling`); they are frames back to back, so no step of theirs is without a line event. -/
theorem rstdev_eventEachStep {s : State} {a : CmdOperands} (hb : s.busy = false) (hdev : a.dev ≤ 31)
    (hlimit : s.cfg.resetPollLimit = none) (hset : ∀ j, s.env.word j &&& s.cfg.resetMask ≠ 0)
    (hr : ∀ p ∈ s.hostIn, p.rst = false) (k : Nat) :
    EventEachStep (writeFrameLen s.cfg + k * readFrameLen s.cfg) (beginCommand (latch 5 a (clearDone s)))
      (polling s a k) where
  reaches := by
    rw [← issue_of_exec (exec_rstdev_accepted hb hdev)]
    exact issue_rstdev_polling hb hdev k (fun j _ => hset j) (fun limit h => by simp [hlimit] at h)
      fun p hp => hr p (List.mem_of_mem_take hp)
  noReset := fun p hp => hr p (List.mem_of_mem_take hp)
  events := by simp [polling, length_writeFrameEvents, length_readsEvents]

/-- Settles O33: for any number of steps there are polls that take longer (`rstdev_eventEachStep`), before whose end the
block is busy with the same command (`EventEachStep.stays_busy`); and a reset in the next step is `step_reset`. -/
theorem rstdevHangsWithoutALimit : Obligations.RstdevHangsWithoutALimit := by
  intro s a hready hdev hlimit hset hr
  refine ⟨_, exec_rstdev_accepted hready.busy hdev, fun n => ?_⟩
  have hpolls := rstdev_eventEachStep hready.busy hdev hlimit hset hr n
  have hread : n ≤ n * readFrameLen s.cfg := Nat.le_mul_of_pos_right n (by simp only [readFrameLen]; omega)
  have hlong : n < writeFrameLen s.cfg + n * readFrameLen s.cfg := by
    simp only [writeFrameLen]
    omega
  obtain ⟨m, hm⟩ := Nat.exists_eq_add_of_lt hlong
  rw [hm] at hpolls
  obtain ⟨u, hrun, hbusy, hdone, hop⟩ := hpolls.stays_busy n
  exact ⟨u, hrun, hbusy, hdone, hop, fun p rest hrst =>
    ⟨_, step_reset (s := { u with hostIn := p :: rest }) hrst, rfl, rfl, rfl, rfl, rfl, rfl⟩⟩

/-! ### The accept step of every command (60_exceptions.md R140) -/

/-- In an idle block an accept step rejects or accepts, by the command's validity rule. -/
theorem accept_eq_ite {s : State} {bad : Bool} {P : Prop} [Decidable P] (hb : s.busy = false) (hbad : bad = true ↔ P)
    (op : BitVec 3) (a : CmdOperands) :
    (.next (accept op bad a s) : Result) =
      if P then .next (rejected s) else .next (beginCommand (latch op a (clearDone s))) := by
  split
  · next h => rw [hbad.mpr h, accept_invalid hb]
  · next h => rw [Bool.eq_false_iff.mpr fun hbad' => h (hbad.mp hbad'), accept_valid hb]

/-- Settles O9: every command is an accept step with its own validity rule (`accept_eq_ite`), and the reserved code is
invalid always (`accept_invalid`). -/
theorem acceptStepOfEveryCommand : Obligations.AcceptStepOfEveryCommand := fun _ a hb =>
  ⟨accept_eq_ite hb invalidRdreg_iff 0 a, accept_eq_ite hb invalidWrreg_iff 1 a,
    accept_eq_ite hb invalidRdexp_iff 2 a, accept_eq_ite hb invalidWrexp_iff 3 a,
    accept_eq_ite hb invalidChkdev_iff 4 a, accept_eq_ite hb decide_eq_true_iff 5 a,
    accept_eq_ite hb decide_eq_true_iff 6 a,
    congrArg Host.Outcome.next (accept_invalid hb 7 a), by simp [responsePort, rejected, hb, Status.code]⟩

end Sys2Proof.Machine
end

section
/-! PROOFS. Reset (70_reset_and_hazards.md): what the reset step leaves, and what holds after it. -/

namespace Sys2Proof.Machine

/-- Right after reset the block is ready and "shows no response" (R160). -/
theorem responsePort_hardwareReset (s : State) : responsePort (hardwareReset s) = ⟨true, false, 0, 0⟩ := by
  simp [responsePort, Status.code]

/-- The reset levels of the pins are those the empty trace leaves (R161). -/
theorem traceLegal_hardwareReset (s : State) : TraceLegal (hardwareReset s) := by
  simp [TraceLegal, replay, Pins.reset]

/-- The state after reset is what a hardware reset leaves of it. -/
theorem hardwareReset_reset : hardwareReset State.reset = State.reset := rfl

/-- Settles O6: the reset step is `hardwareReset` with the pins used up (`step_reset`), whose fields the rules about
`hardwareReset` and `nextInput` give. -/
theorem resetPinResetsEveryRegister : Obligations.ResetPinResetsEveryRegister := by
  intro s h
  refine ⟨hardwareReset (nextInput s), step_reset h, ?_⟩
  simp [responsePort_hardwareReset, Seq.idle]

/-- Settles O7: the state after reset is the result of a hardware reset (`hardwareReset_reset`), so the rules about
`hardwareReset` give its fields. -/
theorem resetStateValues : Obligations.ResetStateValues := by
  unfold Obligations.ResetStateValues
  rw [← hardwareReset_reset]
  simp [Seq.idle]

/-- Settles O36: the two facts hold after any hardware reset (`inv_hardwareReset`, `traceLegal_hardwareReset`), and the
state after reset is the result of one. -/
theorem resetMeetsTheInvariant : Obligations.ResetMeetsTheInvariant := by
  unfold Obligations.ResetMeetsTheInvariant
  rw [← hardwareReset_reset]
  exact ⟨inv_hardwareReset State.reset, traceLegal_hardwareReset State.reset⟩

end Sys2Proof.Machine
end
